-- ==== Sys2Proof/Word.lean ====
section
/-! DEFINITION. The word types of the model: bytes, serial frames and the words of directly applied operations.
Every value is an unsigned bit vector of its stated width, bit 0 the least significant (R8). -/
namespace Sys2Proof

/-- A SegmentMask or a digit-select byte (R70, R75). -/
abbrev Byte := BitVec 8

/-- A serial frame word, segments in bits 15..8 and select in bits 7..0 (R74). -/
abbrev Frame := BitVec 16

/-- The word of an operation that a test bench applies directly. The layout is the model's own (log 1). -/
abbrev OpWord := BitVec 32

end Sys2Proof
end

