-- ==== Sys2Proof/Syntax.lean ====
section
/-! DEFINITION. The operations of the block, one constructor per row of spec/opcode_table.json. A bit that a row's mask does not
fix is an operand, so that a code is never lost, also where the operation ignores it. -/
namespace Sys2Proof

inductive Instr where
  /-- `ENCODE.0-7`: encoder look-up, `DIG = 0xxx` (R100). -/
  | encode0to7 (d : BitVec 4) (dp : Bool)
  /-- `ENCODE.8-9`: encoder look-up, `DIG = 100x` (R100). -/
  | encode8to9 (d : BitVec 4) (dp : Bool)
  /-- `ENC_ILLEGAL.10-11`: encoder input `101x` (R102). -/
  | encIllegal10to11 (d : BitVec 4) (dp : Bool)
  /-- `ENC_ILLEGAL.12-15`: encoder input `11xx` (R102). -/
  | encIllegal12to15 (d : BitVec 4) (dp : Bool)
  /-- `LATCH_LO` (R122); the selector ignores `sbit` (R78). -/
  | latchLo (sbit : BitVec 4)
  /-- `SDATA_BIT n` (R123). -/
  | sdataBit (n : BitVec 4)
  /-- `SCLK_HI n` (R124). -/
  | sclkHi (n : BitVec 4)
  /-- `SCLK_LO n` (R125). -/
  | sclkLo (n : BitVec 4)
  /-- `LATCH_HI` (R126); the selector ignores `sbit` (R78). -/
  | latchHi (sbit : BitVec 4)
  /-- `SACT_RSVD.101` (R127). -/
  | sactRsvd101 (sbit : BitVec 4)
  /-- `SACT_RSVD.11x`, `SPH` being 110 or 111 (R127). -/
  | sactRsvd11x (sph : BitVec 3) (sbit : BitVec 4)
  /-- `LOAD_TIME` (R153). -/
  | loadTime
  /-- `LOAD_EXT` (R154). -/
  | loadExt
  /-- `SHIFT` (R155); `SRC_SEL` is a don't-care (R77). -/
  | shift (srcSel : Bool)
  /-- `SETTLE` (R156); `SRC_SEL` is a don't-care (R77). -/
  | settle (srcSel : Bool)
  /-- `DPH_RSVD` (R157); `SRC_SEL` is a don't-care (R77). -/
  | dphRsvd (srcSel : Bool)
  /-- `POR` (R250); the other control inputs are ignored. -/
  | por (tresetIn tickIn : Bool)
  /-- `TRESET` (R191); a tick at the same edge is discarded (R193). -/
  | treset (tickIn : Bool)
  /-- `TICK` (R190). -/
  | tick
  /-- `THOLD` (R192). -/
  | thold
  /-- `WRITE_FRAME seg, sel` (R128). -/
  | writeFrame (seg sel : Byte)
  /-- `RENDER v, en, pos` (R158). -/
  | render (v : BitVec 16) (en : Bool) (pos : BitVec 2)
  /-- `SNAPSHOT` (R196). -/
  | snapshot
  /-- `CLOCK_RENDER` (R84). -/
  | clockRender
  /-- `EXT_RENDER` (R84). -/
  | extRender
  deriving DecidableEq, Repr

end Sys2Proof
end

