-- ==== Sys2Proof/WellFormed.lean ====
section
/-! DEFINITION. Which operations carry operands that their row of the opcode table admits. Only the rows of the encoder and
`SACT_RSVD.11x` have operands wider than the row's own codes. -/
namespace Sys2Proof

/-- The operand bits lie inside the row's match and mask (R78, R79). Every other row admits every operand (R76). -/
def Instr.wf : Instr → Bool
  | .encode0to7 d _ => d.toNat < 8
  | .encode8to9 d _ => d.toNat = 8 || d.toNat = 9
  | .encIllegal10to11 d _ => d.toNat = 10 || d.toNat = 11
  | .encIllegal12to15 d _ => 12 ≤ d.toNat
  | .sactRsvd11x sph _ => 6 ≤ sph.toNat
  | .latchLo _ | .sdataBit _ | .sclkHi _ | .sclkLo _ | .latchHi _ | .sactRsvd101 _ => true
  | .loadTime | .loadExt | .shift _ | .settle _ | .dphRsvd _ => true
  | .por _ _ | .treset _ | .tick | .thold => true
  | .writeFrame _ _ | .render _ _ _ | .snapshot | .clockRender | .extRender => true

end Sys2Proof
end

