-- ==== Sys2Proof/Decode.lean ====
section
/-! DEFINITION. The four selector decoders of R77 to R80, which a clock edge uses, and the decoder and encoder of the words by
which a test bench applies one operation directly.

THE OPERATION WORD (the model's own layout, DESIGN CHOICE, log 1). The selector spaces share numbers, so a word names its unit:
bits 31..28 are a tag and the bits below it the code and operands as spec/opcode_table.json numbers them.

| tag | unit   | bits |
| 0   | none   | 7..0 a bare table code, read in the narrowest selector that holds it |
| 1   | DIG    | 3..0 DIG, 8 dp |
| 2   | SACT   | 6..4 SPH, 3..0 SBIT |
| 3   | DSEL   | 2..1 DPH, 0 SRC_SEL |
| 4   | CTL    | 2 !RST_N, 1 TRESET, 0 TICK |
| 5   | WRITE_FRAME | 15..8 segment byte, 7..0 select byte |
| 6   | RENDER | 15..0 v, 16 en, 18..17 pos |
| 7   | SNAPSHOT | none |
| 8   | CLOCK_RENDER | none |
| 9   | EXT_RENDER | none |

Every other bit is zero and every other tag reserved; a word that breaks this is refused by name. -/
namespace Sys2Proof

/-- Why a word of a directly applied operation is refused. All are safe: the model stops. -/
inductive DecodeError where
  /-- The tag is 10..15. -/
  | reservedTag (tag : BitVec 4)
  /-- A bit that the tag's layout leaves out is 1. -/
  | reservedBits (tag : BitVec 4)
  /-- A bare code is 128 or more, wider than every selector. -/
  | codeTooWide (code : Byte)
  deriving DecidableEq, Repr

/-- Rows of `DIG[3:0]`, first match (R79). -/
def decodeDig (d : BitVec 4) (dp : Bool) : Instr :=
  if d &&& 0b1000#4 = 0b0000#4 then .encode0to7 d dp
  else if d &&& 0b1110#4 = 0b1000#4 then .encode8to9 d dp
  else if d &&& 0b1110#4 = 0b1010#4 then .encIllegal10to11 d dp
  else .encIllegal12to15 d dp

/-- Rows of `SACT[6:0] = {SPH, SBIT}`, first match (R78). -/
def decodeSact (c : BitVec 7) : Instr :=
  let n := c.extractLsb' 0 4
  if c &&& 0b1110000#7 = 0b0000000#7 then .latchLo n
  else if c &&& 0b1110000#7 = 0b0010000#7 then .sdataBit n
  else if c &&& 0b1110000#7 = 0b0100000#7 then .sclkHi n
  else if c &&& 0b1110000#7 = 0b0110000#7 then .sclkLo n
  else if c &&& 0b1110000#7 = 0b1000000#7 then .latchHi n
  else if c &&& 0b1110000#7 = 0b1010000#7 then .sactRsvd101 n
  else .sactRsvd11x (c.extractLsb' 4 3) n

/-- Rows of `DSEL[2:0] = {DPH, SRC_SEL}`, first match (R77). -/
def decodeDsel (c : BitVec 3) : Instr :=
  if c &&& 0b111#3 = 0b000#3 then .loadTime
  else if c &&& 0b111#3 = 0b001#3 then .loadExt
  else if c &&& 0b110#3 = 0b010#3 then .shift (c.getLsbD 0)
  else if c &&& 0b110#3 = 0b100#3 then .settle (c.getLsbD 0)
  else .dphRsvd (c.getLsbD 0)

/-- Rows of `CTL[2:0] = {!RST_N, TRESET, TICK}`, first match; the row order is the priority of R193 (R80). -/
def decodeCtl (c : BitVec 3) : Instr :=
  if c &&& 0b100#3 = 0b100#3 then .por (c.getLsbD 1) (c.getLsbD 0)
  else if c &&& 0b110#3 = 0b010#3 then .treset (c.getLsbD 0)
  else if c &&& 0b111#3 = 0b001#3 then .tick
  else .thold

/-- A bare code of the opcode table, with no tag to say whose selector it is: it is read in the narrowest selector that holds it
(three bits: `DSEL`; four: `DIG`; seven: `SACT`). The table's own numbers do not tell `DSEL` from `CTL`, nor a small `DIG` or
`SACT` code from either; a tagged word does (log 1). -/
def decodeBare (c : Byte) : Except DecodeError Instr :=
  if c.toNat < 8 then .ok (decodeDsel (c.extractLsb' 0 3))
  else if c.toNat < 16 then .ok (decodeDig (c.extractLsb' 0 4) false)
  else if c.toNat < 128 then .ok (decodeSact (c.extractLsb' 0 7))
  else .error (.codeTooWide c)

/-- The tag of an operation word. -/
def wordTag (w : OpWord) : BitVec 4 := w.extractLsb' 28 4

/-- The bits below the tag. -/
def wordPayload (w : OpWord) : BitVec 28 := w.extractLsb' 0 28

/-- The operation, if the bits that its layout leaves out are zero. -/
def whenUnused (tag : BitVec 4) (zero : Bool) (i : Instr) : Except DecodeError Instr :=
  if zero then .ok i else .error (.reservedBits tag)

/-- The operation that a tag and the bits below it name, or why there is none. -/
def decodePayload (tag : BitVec 4) (p : BitVec 28) : Except DecodeError Instr :=
  if tag = 0#4 then
    if p.extractLsb' 8 20 = 0#20 then decodeBare (p.extractLsb' 0 8) else .error (.reservedBits tag)
  else if tag = 1#4 then
    whenUnused tag (p.extractLsb' 4 4 == 0#4 && p.extractLsb' 9 19 == 0#19)
      (decodeDig (p.extractLsb' 0 4) (p.getLsbD 8))
  else if tag = 2#4 then whenUnused tag (p.extractLsb' 7 21 == 0#21) (decodeSact (p.extractLsb' 0 7))
  else if tag = 3#4 then whenUnused tag (p.extractLsb' 3 25 == 0#25) (decodeDsel (p.extractLsb' 0 3))
  else if tag = 4#4 then whenUnused tag (p.extractLsb' 3 25 == 0#25) (decodeCtl (p.extractLsb' 0 3))
  else if tag = 5#4 then
    whenUnused tag (p.extractLsb' 16 12 == 0#12) (.writeFrame (p.extractLsb' 8 8) (p.extractLsb' 0 8))
  else if tag = 6#4 then
    whenUnused tag (p.extractLsb' 19 9 == 0#9) (.render (p.extractLsb' 0 16) (p.getLsbD 16) (p.extractLsb' 17 2))
  else if tag = 7#4 then whenUnused tag (p == 0#28) .snapshot
  else if tag = 8#4 then whenUnused tag (p == 0#28) .clockRender
  else if tag = 9#4 then whenUnused tag (p == 0#28) .extRender
  else .error (.reservedTag tag)

/-- The operation that a word names, or why it is refused. Total on every word. -/
def decode (w : OpWord) : Except DecodeError Instr := decodePayload (wordTag w) (wordPayload w)

/-- The tag of the selector or composite row that an operation belongs to. -/
def Instr.tag : Instr → BitVec 4
  | .encode0to7 _ _ | .encode8to9 _ _ | .encIllegal10to11 _ _ | .encIllegal12to15 _ _ => 1#4
  | .latchLo _ | .sdataBit _ | .sclkHi _ | .sclkLo _ | .latchHi _ | .sactRsvd101 _ | .sactRsvd11x _ _ => 2#4
  | .loadTime | .loadExt | .shift _ | .settle _ | .dphRsvd _ => 3#4
  | .por _ _ | .treset _ | .tick | .thold => 4#4
  | .writeFrame _ _ => 5#4
  | .render _ _ _ => 6#4
  | .snapshot => 7#4
  | .clockRender => 8#4
  | .extRender => 9#4

/-- Code and operand bits of an operation, below its tag, from the same tables of the spec (R77 to R80, R74, R76). -/
def Instr.payload : Instr → BitVec 28
  | .encode0to7 d dp | .encode8to9 d dp | .encIllegal10to11 d dp | .encIllegal12to15 d dp =>
      0#19 ++ BitVec.ofBool dp ++ 0#4 ++ d
  | .latchLo n => 0#21 ++ 0b000#3 ++ n
  | .sdataBit n => 0#21 ++ 0b001#3 ++ n
  | .sclkHi n => 0#21 ++ 0b010#3 ++ n
  | .sclkLo n => 0#21 ++ 0b011#3 ++ n
  | .latchHi n => 0#21 ++ 0b100#3 ++ n
  | .sactRsvd101 n => 0#21 ++ 0b101#3 ++ n
  | .sactRsvd11x sph n => 0#21 ++ sph ++ n
  | .loadTime => 0#25 ++ 0b000#3
  | .loadExt => 0#25 ++ 0b001#3
  | .shift src => 0#25 ++ 0b01#2 ++ BitVec.ofBool src
  | .settle src => 0#25 ++ 0b10#2 ++ BitVec.ofBool src
  | .dphRsvd src => 0#25 ++ 0b11#2 ++ BitVec.ofBool src
  | .por tr tk => 0#25 ++ 0b1#1 ++ BitVec.ofBool tr ++ BitVec.ofBool tk
  | .treset tk => 0#25 ++ 0b01#2 ++ BitVec.ofBool tk
  | .tick => 0#25 ++ 0b001#3
  | .thold => 0#25 ++ 0b000#3
  | .writeFrame seg sel => 0#12 ++ seg ++ sel
  | .render v en pos => 0#9 ++ pos ++ BitVec.ofBool en ++ v
  | .snapshot | .clockRender | .extRender => 0#28

/-- The word of an operation. -/
def encode (i : Instr) : OpWord := i.tag ++ i.payload

/-- The operation that the model's decoder reads from a table row's bits: an operation word whose tag is zero. -/
def decodeTableWord (nbits w : Nat) : Option Instr :=
  match decode (BitVec.ofNat 32 (w % 2 ^ nbits)) with
  | .ok i => some i
  | .error _ => none

end Sys2Proof
end

