-- ==== Sys2Proof/Machine/Codes.lean ====
section
/-! DEFINITION. The codes of the sequencing registers: display phase (R25) and serializer action (R27). -/
namespace Sys2Proof.Machine

/-- `DPH` = LOAD (R25). -/
abbrev dphLoad : BitVec 2 := 0b00#2
/-- `DPH` = SHIFT (R25). -/
abbrev dphShift : BitVec 2 := 0b01#2
/-- `DPH` = SETTLE (R25). -/
abbrev dphSettle : BitVec 2 := 0b10#2
/-- The reserved phase code (R25, R77). -/
abbrev dphReserved : BitVec 2 := 0b11#2

/-- `SPH` = LATCH_LO (R27). -/
abbrev sphLatchLo : BitVec 3 := 0b000#3
/-- `SPH` = DATA (R27). -/
abbrev sphData : BitVec 3 := 0b001#3
/-- `SPH` = CLK_HI (R27). -/
abbrev sphClkHi : BitVec 3 := 0b010#3
/-- `SPH` = CLK_LO (R27). -/
abbrev sphClkLo : BitVec 3 := 0b011#3
/-- `SPH` = LATCH_HI (R27). -/
abbrev sphLatchHi : BitVec 3 := 0b100#3

end Sys2Proof.Machine
end

