-- ==== Sys2Proof/Config.lean ====
section
/-! DEFINITION. What is fixed when the block is built (R6, R34). The structure stands here; the spec's default values, the
table reads and the constraints of R7 stand in Machine/Tables.lean. No instruction of this hardware leaves a value open, so there
is no free value. -/
namespace Sys2Proof

/-- The parameters of R6 that differ from one build of the block to another. `NDIG`, `SEC_MOD`, `MIN_MOD` and
`TIME_DP_POS` are fixed in the spec (93_implementation_defined.md section 2) and are named constants in Machine/Tables.lean. -/
structure Config where
  /-- `SEG_TABLE` (R51). -/
  segTable : Vector Byte 10
  /-- `SEL_TABLE` (R53). -/
  selTable : Vector Byte 4
  /-- `DP_BIT`: the decimal-point bit of a SegmentMask (R6, R72). -/
  dpBit : Fin 8
  /-- `PHASE_CYCLES`: edges per line action (R121). -/
  phaseCycles : Nat
  /-- `SETTLE_CYCLES`: edges per settle interval (R156). -/
  settleCycles : Nat
  /-- `F_CLK` in hertz. No step reads it (R262). -/
  fClk : Nat
  deriving DecidableEq, Repr

end Sys2Proof
end

