-- ==== Sys2Proof/Machine/Tables.lean ====
section
/-! DEFINITION. The build-time constants: the spec's fixed numbers and default tables (R6, R51, R53), the table reads (R52), the
constraints on a configuration (R7), and the edge counts and targets that follow from one (R264, R262). -/
namespace Sys2Proof

/-- `NDIG` (R6). -/
def nDig : Nat := 4
/-- `SEC_MOD` (R6). -/
def secMod : Nat := 60
/-- `MIN_MOD` (R6). -/
def minMod : Nat := 100
/-- `TIME_DP_POS`: the decimal-point position of the time display (R6, R84). -/
def timeDpPos : BitVec 2 := 1#2

/-- The default `SEG_TABLE`. The spec marks its values as general knowledge, not source (R51, G1; log 6). -/
def segTableDefault : Vector Byte 10 :=
  #v[0xC0#8, 0xF9#8, 0xA4#8, 0xB0#8, 0x99#8, 0x92#8, 0x82#8, 0xF8#8, 0x80#8, 0x90#8]

/-- The source's `SEL_TABLE` (R53). -/
def selTableDefault : Vector Byte 4 := #v[0x01#8, 0x02#8, 0x04#8, 0x08#8]

/-- The configuration that State.reset launches with: the defaults of R6, and for the two OPEN parameters the values of R262's
worked example (DESIGN CHOICE, log 6). -/
def Config.launch : Config :=
  { segTable := segTableDefault, selTable := selTableDefault, dpBit := 7, phaseCycles := 1, settleCycles := 3949, fClk := 1000000 }

/-- `ROM(SEG_TABLE, d)` for a digit in range (R52). -/
def Config.segRom (c : Config) (d : Fin 10) : Byte := c.segTable[d]

/-- `ROM(SEL_TABLE, i)`; every 2-bit index is in range (R52). -/
def Config.selRom (c : Config) (i : BitVec 2) : Byte := c.selTable[i.toNat]

/-- A SegmentMask with its decimal-point bit cleared: `p & ~(8'h01 << DP_BIT)` (R100). -/
def Config.withPoint (c : Config) (p : Byte) : Byte := p &&& ~~~(0x01#8 <<< c.dpBit.val)

/-- Exactly one bit of the byte is 1 (R7). -/
abbrev OneHot (b : Byte) : Prop := ∃ k : Fin 8, b = 1#8 <<< k.val

/-- The constraints of R7, and `F_CLK > 0` (92_eei_decisions.md, Open parameters). -/
abbrev Config.Valid (c : Config) : Prop :=
  (∀ d : Fin 10, (c.segRom d).getLsbD c.dpBit.val = true) ∧
  (∀ i : Fin 4, OneHot (c.selRom (BitVec.ofFin i))) ∧
  (∀ i j : Fin 4, i ≠ j → c.selRom (BitVec.ofFin i) ≠ c.selRom (BitVec.ofFin j)) ∧
  1 ≤ c.phaseCycles ∧ 1 ≤ c.settleCycles ∧ 0 < c.fClk

/-- Edges of one WRITE_FRAME: 50 line actions (R133, R264). -/
def Config.frameEdges (c : Config) : Nat := 50 * c.phaseCycles

/-- Edges of one digit slot (R264). -/
def Config.slotEdges (c : Config) : Nat := 50 * c.phaseCycles + c.settleCycles

/-- Edges of one multiplex cycle (R163, R264). -/
def Config.cycleEdges (c : Config) : Nat := 1 + 4 * (50 * c.phaseCycles + c.settleCycles)

/-- Width of a counter of the values 0..n-1: ⌈log2 n⌉ bits (R28, R29). -/
def counterWidth (n : Nat) : Nat := if n ≤ 1 then 0 else Nat.log2 (n - 1) + 1

/-- The refresh target of R262, one cycle within 16 ms. A target for choosing parameters; no step depends on it. -/
def Config.meetsFlickerTarget (c : Config) : Bool := c.cycleEdges * 1000 ≤ 16 * c.fClk

end Sys2Proof
end

