-- ==== Sys2Proof/Machine/State.lean ====
section
/-! DEFINITION. The state of the block (R35), its build-time configuration (R34), the model's fault record (R220), and beside
them the environment: input ports, the stimulus still to come, the reference receiver (R134). Plain data throughout. The block has
no memory (R50), so there is no memory list. -/
namespace Sys2Proof.Machine

/-- The input ports of R20. `CLK` is the step itself. -/
structure Inputs where
  /-- `RST_N`, active low. -/
  rstN : Bool
  /-- `TRESET`. -/
  treset : Bool
  /-- `TICK`. -/
  tick : Bool
  /-- `SRC_SEL`: false is time, true is the external value. -/
  srcSel : Bool
  /-- `EXT_VALUE`. -/
  extValue : BitVec 16
  /-- `EXT_DP_EN`. -/
  extDpEn : Bool
  /-- `EXT_DP_POS`. -/
  extDpPos : BitVec 2
  deriving DecidableEq, Repr

/-- One item of a stimulus program (R83, log 2). -/
inductive Stimulus where
  /-- One rising edge of `CLK` with these inputs. -/
  | edge (inp : Inputs)
  /-- A test bench applies the operation of this word by itself, with no clock edge. -/
  | op (w : OpWord)
  deriving DecidableEq, Repr

/-- The reference receiver of R134, not part of the block. -/
structure Receiver where
  /-- The shift chain. -/
  sr : BitVec 16
  /-- The parallel outputs. -/
  out : BitVec 16
  deriving DecidableEq, Repr

/-- What a contract operation hands back (R83): a SegmentMask, or a time. -/
inductive OpResult where
  | seg (mask : Byte)
  | time (seconds : BitVec 6) (minutes : BitVec 7)
  deriving DecidableEq, Repr

/-- The register that an `F_STATE_INV` record names (R220). -/
inductive StateReg where
  | pcnt | scnt | rdig | sbit
  deriving DecidableEq, Repr

/-- The contract violations of R220, each with its info value. -/
inductive FaultCause where
  /-- `F_ENC_DIGIT`. -/
  | encDigit (digit : BitVec 4)
  /-- `F_DPH_RSVD`. -/
  | dphRsvd (dph : BitVec 2)
  /-- `F_SACT_RSVD`. -/
  | sactRsvd (sph : BitVec 3)
  /-- `F_TIME_INV`. -/
  | timeInv (min : BitVec 7) (sec : BitVec 6)
  /-- `F_STATE_INV`. -/
  | stateInv (reg : StateReg)
  deriving DecidableEq, Repr

/-- One record: its cause, which gives code and info, and the edge it was made at (R220). -/
structure FaultRecord where
  cause : FaultCause
  edge : Nat
  deriving DecidableEq, Repr

/-- Block, configuration, fault record and environment at one instant. -/
structure State where
  /-- Tables and parameters, fixed while the block runs (R34, R54). -/
  cfg : Config
  /-- `SEC` (R22). -/
  sec : BitVec 6
  /-- `MIN` (R23). -/
  min : BitVec 7
  /-- `DPH` (R25). -/
  dph : BitVec 2
  /-- `DIDX` (R26). -/
  didx : BitVec 2
  /-- `SPH` (R27). -/
  sph : BitVec 3
  /-- `SBIT` (R27). -/
  sbit : BitVec 4
  /-- `PCNT` (R28, log 7). -/
  pcnt : Nat
  /-- `SCNT` (R29, log 7). -/
  scnt : Nat
  /-- `RDIG[0..3]` (R30). -/
  rdig : Vector (BitVec 4) 4
  /-- `RDPEN` (R31). -/
  rdpen : Bool
  /-- `RDPPOS` (R31). -/
  rdppos : BitVec 2
  /-- `SDATA` (R32). -/
  sdata : Bool
  /-- `SCLK` (R32). -/
  sclk : Bool
  /-- `SLATCH` (R32). -/
  slatch : Bool
  /-- The fault record, oldest first (R220). -/
  faults : List FaultRecord
  /-- Number of the next clock edge (model only, log 8). -/
  edge : Nat
  /-- Levels on the input ports: those sampled at the last edge, or at the coming edge while one is being computed (R20). -/
  inputs : Inputs
  /-- The stimulus still to come, next item first (R83, log 3). -/
  stim : List Stimulus
  /-- The reference receiver (R134, log 9). -/
  recv : Receiver
  /-- What the last ENCODE or SNAPSHOT handed back (model only, log 10). -/
  result : Option OpResult
  deriving DecidableEq, Repr

/-- Why the machine stops for good. -/
inductive Fault where
  /-- Raised by `step`, on a state that already holds a fault record: "Once a fault is recorded, the model takes no further step"
  (R220). Carries the first record. Safe: the model stops where hardware goes on unspecified (log 4). -/
  | recorded (r : FaultRecord)
  deriving DecidableEq, Repr

/-- Why the model gives no step. -/
inductive Refusal where
  /-- Raised by an arm of `exec` that has no meaning yet. Safe. -/
  | notModelled (mnemonic : String)
  /-- Raised by `step`, on a configuration that breaks a constraint: "A model refuses a configuration that breaks one of them"
  (R7). Safe. -/
  | badConfig
  /-- Raised by `step`, on a directly applied operation word that names no operation. Safe: the word is the model's own (log 1). -/
  | badOpWord (e : DecodeError)
  deriving DecidableEq, Repr

/-- The port levels of the model's launch: reset released, no strobe, time display (DESIGN CHOICE, log 3). -/
def Inputs.launch : Inputs :=
  { rstN := true, treset := false, tick := false, srcSel := false, extValue := 0#16, extDpEn := false, extDpPos := 0#2 }

/-- The machine right after a POR (R41, R251). -/
def State.reset : State :=
  { cfg := Config.launch
    sec := 0#6, min := 0#7
    dph := dphLoad, didx := 0#2, sph := sphLatchLo, sbit := 0#4, pcnt := 0, scnt := 0
    rdig := #v[0#4, 0#4, 0#4, 0#4], rdpen := false, rdppos := 0#2
    sdata := false, sclk := false, slatch := false
    faults := [], edge := 0
    inputs := Inputs.launch, stim := []
    recv := { sr := 0#16, out := 0#16 }
    result := none }

end Sys2Proof.Machine
end

