-- ==== Sys2Proof/Machine/Flags.lean ====
section
/-! DEFINITION. The block has no status flags and no condition codes (R38); an instruction writes none. What a step computes in
their place are the fault conditions of R220, which stand here. -/
namespace Sys2Proof.Machine

/-- The code of a fault (R220). -/
def FaultCause.code : FaultCause → Nat
  | .encDigit _ => 1
  | .dphRsvd _ => 2
  | .sactRsvd _ => 3
  | .timeInv _ _ => 4
  | .stateInv _ => 5

/-- Lowest codes first, each cause once: the record is a set (R220, R224). -/
def orderByCode (cs : List FaultCause) : List FaultCause :=
  [1, 2, 3, 4, 5].flatMap fun k => (cs.filter fun c => c.code == k).eraseDups

/-- A cause, where its condition holds. -/
def causeIf (cond : Prop) [Decidable cond] (c : FaultCause) : List FaultCause := if cond then [c] else []

/-- `F_TIME_INV`: SEC or MIN is outside its range (R199). -/
def timeFaults (s : State) : List FaultCause :=
  causeIf (secMod ≤ s.sec.toNat ∨ minMod ≤ s.min.toNat) (.timeInv s.min s.sec)

/-- The display engine's unreachable codes (R42): codes 2, 3 and 5 of R220. -/
def engineFaults (s : State) : List FaultCause :=
  causeIf (s.dph = dphReserved) (.dphRsvd s.dph) ++
  causeIf (sphLatchHi < s.sph) (.sactRsvd s.sph) ++
  causeIf (s.cfg.phaseCycles ≤ s.pcnt) (.stateInv .pcnt) ++
  causeIf (s.cfg.settleCycles ≤ s.scnt) (.stateInv .scnt) ++
  causeIf (∃ k : Fin 4, 10 ≤ s.rdig[k].toNat) (.stateInv .rdig) ++
  causeIf ((s.sph = sphLatchLo ∨ s.sph = sphLatchHi) ∧ s.sbit ≠ 0#4) (.stateInv .sbit)

end Sys2Proof.Machine
end

