-- ==== Sys2Proof/Machine/Ops.lean ====
section
/-! DEFINITION. The named updates of the state. Every meaning is written over these. The block has no memory and no register file
(R36, R50), so the shared operations are: raising a fault, driving the lines, writing the time, capturing a render value, and the
sequencer's moves. It takes no exception and returns from none (R221, R225, R226): `State.raise` is the nearest thing. -/
namespace Sys2Proof.Machine

/-- `raise` of R9: the sticky record grows and nothing else changes (R220, R224). -/
def State.raise (s : State) (cs : List FaultCause) : State :=
  { s with faults := s.faults ++ (orderByCode cs).map fun c => { cause := c, edge := s.edge } }

/-- The state `t`, unless the list `cs` of raised causes is not empty: then `s` with those recorded (R42: it "does not step on"). -/
def State.unlessFault (s : State) (cs : List FaultCause) (t : State) : State :=
  match cs with
  | [] => t
  | c :: rest => s.raise (c :: rest)

/-- The receiver compares the lines before and after an edge (R134). -/
def Receiver.observe (r : Receiver) (sclkWas slatchWas sdata sclk slatch : Bool) : Receiver :=
  { sr := if !sclkWas && sclk then r.sr.extractLsb' 0 15 ++ BitVec.ofBool sdata else r.sr
    out := if !slatchWas && slatch then r.sr else r.out }

/-- Write the output lines; the receiver sees the change (R9, R32, R134). -/
def State.driveLines (s : State) (sdata sclk slatch : Bool) : State :=
  { s with
    sdata := sdata, sclk := sclk, slatch := slatch
    recv := s.recv.observe s.sclk s.slatch sdata sclk slatch }

/-- Write SEC and MIN. -/
def State.setTime (s : State) (sec : BitVec 6) (min : BitVec 7) : State := { s with sec := sec, min := min }

/-- What a contract operation hands back to its caller (log 10). -/
def State.setResult (s : State) (r : OpResult) : State := { s with result := some r }

/-- The serializer's next position (R121). -/
def State.setAction (s : State) (sph : BitVec 3) (sbit : BitVec 4) (pcnt : Nat) : State :=
  { s with sph := sph, sbit := sbit, pcnt := pcnt }

/-- The position of the digit slot (R26). -/
def State.setDigit (s : State) (i : BitVec 2) : State := { s with didx := i }

/-- The end of a frame: the engine holds the digit (R155). -/
def State.endFrame (s : State) : State := { s with pcnt := 0, dph := dphSettle, scnt := 0 }

/-- The end of a settle interval that is not the last digit's (R156). -/
def State.nextSlot (s : State) : State :=
  { s with scnt := 0, didx := s.didx + 1#2, sph := sphLatchLo, sbit := 0#4, pcnt := 0, dph := dphShift }

/-- The end of the last digit's settle interval (R156). -/
def State.endCycle (s : State) : State := { s with scnt := 0, didx := 0#2, dph := dphLoad }

/-- One more edge of a settle interval (R156). -/
def State.countSettle (s : State) : State := { s with scnt := s.scnt + 1 }

/-- Capture of a render value at a LOAD edge, the digits already split (R153, R154). -/
def State.capture (s : State) (digits : Vector (BitVec 4) 4) (en : Bool) (pos : BitVec 2) : State :=
  { s with
    rdig := digits, rdpen := en, rdppos := pos
    didx := 0#2, sph := sphLatchLo, sbit := 0#4, pcnt := 0, dph := dphShift }

/-- Every register of R35 at its value of R41. Configuration, fault record (R220), receiver (R252) and environment stay. -/
def State.blockReset (s : State) : State :=
  { s.driveLines false false false with
    sec := 0#6, min := 0#7
    dph := dphLoad, didx := 0#2, sph := sphLatchLo, sbit := 0#4, pcnt := 0, scnt := 0
    rdig := #v[0#4, 0#4, 0#4, 0#4], rdpen := false, rdppos := 0#2 }

/-- Put the input levels of an edge on the ports and drop the item from the stimulus. -/
def State.sample (s : State) (inp : Inputs) (rest : List Stimulus) : State := { s with inputs := inp, stim := rest }

/-- The edge is over; the next one has the next number (log 8). -/
def State.countEdge (s : State) : State := { s with edge := s.edge + 1 }

/-- The levels at an edge that no stimulus item describes: strobes down, reset released, the rest held (R83, R222, R254; log 3). -/
def Inputs.idle (i : Inputs) : Inputs := { i with rstN := true, treset := false, tick := false }

/-- What a unit added to the fault record. -/
def newCauses (s t : State) : List FaultCause := (t.faults.drop s.faults.length).map FaultRecord.cause

/-- One edge from the two units' own next states `t` (TIME) and `d` (display engine), both computed from `s`: TIME's two registers
from the one, all others from the other (R10, R62, R197). If either raised, only the record changes (R42, R224). -/
def State.joinUnits (s t d : State) : State :=
  (s.unlessFault (newCauses s t ++ newCauses s d) (d.setTime t.sec t.min)).countEdge

/-- The output ports (R21). -/
structure Outputs where
  sdata : Bool
  sclk : Bool
  slatch : Bool
  seconds : BitVec 6
  minutes : BitVec 7
  deriving DecidableEq, Repr

/-- What an observer sees between edges: each port is driven straight from a register (R12, R21). -/
def State.outputs (s : State) : Outputs :=
  { sdata := s.sdata, sclk := s.sclk, slatch := s.slatch, seconds := s.sec, minutes := s.min }

end Sys2Proof.Machine
end

