-- ==== Sys2Proof/Machine/Operands.lean ====
section
/-! DEFINITION. The operand forms: selector vectors (R77, R78, R80), digit decomposition (R150), the time's render value (R153),
the encoder function (R100), decimal-point gating (R151) and the frame word (R152). -/
namespace Sys2Proof.Machine

/-- `CTL[2:0] = {!RST_N, TRESET, TICK}` (R80). -/
def Inputs.ctl (i : Inputs) : BitVec 3 := BitVec.ofBool (!i.rstN) ++ BitVec.ofBool i.treset ++ BitVec.ofBool i.tick

/-- `DSEL[2:0] = {DPH, SRC_SEL}` (R77). -/
def State.dsel (s : State) : BitVec 3 := s.dph ++ BitVec.ofBool s.inputs.srcSel

/-- `SACT[6:0] = {SPH, SBIT}` (R78). -/
def State.sact (s : State) : BitVec 7 := s.sph ++ s.sbit

/-- `DIGIT(v, k)`: k = 0 is the thousands digit, k = 3 the units (R150). -/
def digit (v : BitVec 16) (k : Fin 4) : BitVec 4 := BitVec.ofNat 4 (v.toNat / 10 ^ (3 - k.val) % 10)

/-- The four digits, left to right (R150). -/
def digits (v : BitVec 16) : Vector (BitVec 4) 4 := #v[digit v 0, digit v 1, digit v 2, digit v 3]

/-- The render value of the time: `zext_16(MIN) * 100 + zext_16(SEC)` (R153). -/
def State.timeValue (s : State) : BitVec 16 := s.min.setWidth 16 * 100#16 + s.sec.setWidth 16

/-- `RDIG[i]`; every 2-bit index is in range. -/
def State.rdigAt (s : State) (i : BitVec 2) : BitVec 4 := s.rdig[i.toNat]

/-- `ENC(d, dp)`: the table's mask, its decimal-point bit cleared when `dp`; no value outside 0..9 (R100, R102). -/
def enc (c : Config) (d : BitVec 4) (dp : Bool) : Except FaultCause Byte :=
  if h : d.toNat < 10 then
    let p := c.segRom ⟨d.toNat, h⟩
    .ok (if dp then c.withPoint p else p)
  else .error (.encDigit d)

/-- `decimalOn` of the current slot: `RDPEN && (RDPPOS == DIDX)` (R151). -/
def State.decimalOn (s : State) : Bool := s.rdpen && s.rdppos == s.didx

/-- `CUR_WORD`: the current slot's segment mask and its select byte (R152). -/
def State.curWord (s : State) : Except FaultCause Frame :=
  match enc s.cfg (s.rdigAt s.didx) s.decimalOn with
  | .ok seg => .ok (seg ++ s.cfg.selRom s.didx)
  | .error c => .error c

end Sys2Proof.Machine
end

