-- ==== Sys2Proof/Machine/Enc.lean ====
section
/-! DEFINITION. The segment encoder's operations (40_segment_encoder.md). The encoder reads no register and writes none; its mask
goes to the caller. -/
namespace Sys2Proof.Machine

/-- Hand back `ENC(d, dp)`, or record the fault and hand back nothing (R100, R102). -/
def State.encodeDigit (s : State) (d : BitVec 4) (dp : Bool) : State :=
  match enc s.cfg d dp with
  | .ok m => s.setResult (.seg m)
  | .error c => s.raise [c]

/-- `ENCODE.0-7` (R100). -/
def execEncode0to7 (d : BitVec 4) (dp : Bool) (s : State) : Host.Outcome State Fault Refusal := .next (s.encodeDigit d dp)

/-- `ENCODE.8-9` (R100). -/
def execEncode8to9 (d : BitVec 4) (dp : Bool) (s : State) : Host.Outcome State Fault Refusal := .next (s.encodeDigit d dp)

/-- `ENC_ILLEGAL.10-11`: record `F_ENC_DIGIT(d)`, whatever `dp` is; no value (R102). -/
def execEncIllegal10to11 (d : BitVec 4) (_dp : Bool) (s : State) : Host.Outcome State Fault Refusal :=
  .next (s.raise [.encDigit d])

/-- `ENC_ILLEGAL.12-15`: record `F_ENC_DIGIT(d)`, whatever `dp` is; no value (R102). -/
def execEncIllegal12to15 (d : BitVec 4) (_dp : Bool) (s : State) : Host.Outcome State Fault Refusal :=
  .next (s.raise [.encDigit d])

end Sys2Proof.Machine
end

