-- ==== Sys2Proof/Machine/Ser.lean ====
section
/-! DEFINITION. The serializer (41_serial_output.md): its line actions, their order and phase timing, and a frame as one
operation. -/
namespace Sys2Proof.Machine

/-- `SLATCH <- 0` (R122). -/
def State.latchLo (s : State) : State := s.driveLines s.sdata s.sclk false

/-- Put one bit on the data line. -/
def State.putBit (s : State) (b : Bool) : State := s.driveLines b s.sclk s.slatch

/-- `SDATA <- CUR_WORD[15 - n]` (R123). Reading the frame word evaluates the encoder, whose fault is recorded (R100, R152). -/
def State.sdataBit (s : State) (n : BitVec 4) : State :=
  match s.curWord with
  | .ok w => s.putBit (w.getLsbD (15 - n.toNat))
  | .error c => s.raise [c]

/-- `SCLK <- 1` (R124). -/
def State.sclkHi (s : State) : State := s.driveLines s.sdata true s.slatch

/-- `SCLK <- 0` (R125). -/
def State.sclkLo (s : State) : State := s.driveLines s.sdata false s.slatch

/-- `SLATCH <- 1` (R126). -/
def State.latchHi (s : State) : State := s.driveLines s.sdata s.sclk true

/-- `LATCH_LO` (R122). -/
def execLatchLo (_sbit : BitVec 4) (s : State) : Host.Outcome State Fault Refusal := .next s.latchLo

/-- `SDATA_BIT n` (R123). -/
def execSdataBit (n : BitVec 4) (s : State) : Host.Outcome State Fault Refusal := .next (s.sdataBit n)

/-- `SCLK_HI n` (R124). -/
def execSclkHi (_n : BitVec 4) (s : State) : Host.Outcome State Fault Refusal := .next s.sclkHi

/-- `SCLK_LO n` (R125). -/
def execSclkLo (_n : BitVec 4) (s : State) : Host.Outcome State Fault Refusal := .next s.sclkLo

/-- `LATCH_HI` (R126). -/
def execLatchHi (_sbit : BitVec 4) (s : State) : Host.Outcome State Fault Refusal := .next s.latchHi

/-- `SACT_RSVD.101`: record `F_SACT_RSVD(101)`; no line is written (R127). -/
def execSactRsvd101 (_sbit : BitVec 4) (s : State) : Host.Outcome State Fault Refusal := .next (s.raise [.sactRsvd 0b101#3])

/-- `SACT_RSVD.11x`: record `F_SACT_RSVD(SPH)`; no line is written (R127). -/
def execSactRsvd11x (sph : BitVec 3) (_sbit : BitVec 4) (s : State) : Host.Outcome State Fault Refusal :=
  .next (s.raise [.sactRsvd sph])

/-- `ACTION(SPH, SBIT)`: the line action that the position selects (R78, R121). -/
def State.lineAction (s : State) : State :=
  if s.sph = sphLatchLo then s.latchLo
  else if s.sph = sphData then s.sdataBit s.sbit
  else if s.sph = sphClkHi then s.sclkHi
  else if s.sph = sphClkLo then s.sclkLo
  else if s.sph = sphLatchHi then s.latchHi
  else s.raise [.sactRsvd s.sph]

/-- `NEXT` (R120): no action follows LATCH_HI, nor a reserved code. -/
def nextAction (sph : BitVec 3) (n : BitVec 4) : Option (BitVec 3 × BitVec 4) :=
  if sph = sphLatchLo then some (sphData, 0#4)
  else if sph = sphData then some (sphClkHi, n)
  else if sph = sphClkHi then some (sphClkLo, n)
  else if sph = sphClkLo then (if n = 15#4 then some (sphLatchHi, 0#4) else some (sphData, n + 1#4))
  else none

/-- The action of index j = 0..49 of a frame, in closed form (R120). -/
def actionAt (j : Nat) : BitVec 3 × BitVec 4 :=
  if j = 0 then (sphLatchLo, 0#4)
  else if 49 ≤ j then (sphLatchHi, 0#4)
  else if (j - 1) % 3 = 0 then (sphData, BitVec.ofNat 4 ((j - 1) / 3))
  else if (j - 1) % 3 = 1 then (sphClkHi, BitVec.ofNat 4 ((j - 1) / 3))
  else (sphClkLo, BitVec.ofNat 4 ((j - 1) / 3))

/-- Phase timing: a line action holds for PHASE_CYCLES edges, then the next one is due; after LATCH_HI the frame is over (R121,
R155). -/
def State.advance (s : State) : State :=
  if s.pcnt + 1 = s.cfg.phaseCycles then
    match nextAction s.sph s.sbit with
    | some (sph, n) => s.setAction sph n 0
    | none => s.endFrame
  else s.setAction s.sph s.sbit (s.pcnt + 1)

/-- `SER_STEP`, with the move of R155 at the end of the frame: the action is performed at the first edge of its phase (R121). -/
def State.serStep (s : State) : State := (if s.pcnt = 0 then s.lineAction else s).advance

/-- One bit of a frame: set data, clock high, clock low (R128). -/
def State.pulseBit (s : State) (b : Bool) : State := (s.putBit b).sclkHi.sclkLo

/-- The lines of a whole frame: latch low, sixteen bits MSB first, latch high (R128). -/
def State.frameLines (s : State) (w : Frame) : State :=
  ((List.range 16).foldl (fun t n => t.pulseBit (w.getLsbD (15 - n))) s.latchLo).latchHi

/-- A whole frame: its lines, and the sequencer where the frame's last SHIFT edge leaves it (R128, R155; log 11). -/
def State.sendFrame (s : State) (w : Frame) : State := ((s.frameLines w).setAction sphLatchHi 0#4 0).endFrame

/-- `WRITE_FRAME seg, sel` (R128). -/
def execWriteFrame (seg sel : Byte) (s : State) : Host.Outcome State Fault Refusal :=
  .next (s.unlessFault (engineFaults s) (s.sendFrame (seg ++ sel)))

end Sys2Proof.Machine
end

