-- ==== Sys2Proof/Machine/Mux.lean ====
section
/-! DEFINITION. The display multiplexer (42_display_mux.md): its phases, and a multiplex cycle as one operation. A phase that meets
an unreachable code of R42 records the fault and does not move. -/
namespace Sys2Proof.Machine

/-- The capture of the time, point shown at TIME_DP_POS, under the fault conditions that apply to it (R153). -/
def State.loadTime (s : State) (timeCheck : List FaultCause) : State :=
  s.unlessFault (engineFaults s ++ timeCheck) (s.capture (digits s.timeValue) true timeDpPos)

/-- `LOAD_TIME`: capture the time (R153). -/
def execLoadTime (s : State) : Host.Outcome State Fault Refusal := .next (s.loadTime (timeFaults s))

/-- `LOAD_EXT`: capture the external value as the ports hold it (R154). -/
def execLoadExt (s : State) : Host.Outcome State Fault Refusal :=
  .next (s.unlessFault (engineFaults s) (s.capture (digits s.inputs.extValue) s.inputs.extDpEn s.inputs.extDpPos))

/-- The encoder's fault, where this SHIFT edge is to send a bit of a frame word that does not exist (R100, R123, R224). -/
def sendFaults (s : State) : List FaultCause :=
  match s.curWord with
  | .ok _ => []
  | .error c => causeIf (s.pcnt = 0 ∧ s.sph = sphData) c

/-- `SHIFT`: one edge of the current digit's frame (R155). -/
def execShift (_srcSel : Bool) (s : State) : Host.Outcome State Fault Refusal :=
  .next (s.unlessFault (sendFaults s ++ engineFaults s) s.serStep)

/-- One edge of the settle interval (R156). -/
def State.settleStep (s : State) : State :=
  if s.scnt + 1 = s.cfg.settleCycles then (if s.didx = 3#2 then s.endCycle else s.nextSlot) else s.countSettle

/-- `SETTLE` (R156). -/
def execSettle (_srcSel : Bool) (s : State) : Host.Outcome State Fault Refusal :=
  .next (s.unlessFault (engineFaults s) s.settleStep)

/-- `DPH_RSVD`: record `F_DPH_RSVD(11)` and whatever else the state breaks; no state changes (R157, R224). -/
def execDphRsvd (_srcSel : Bool) (s : State) : Host.Outcome State Fault Refusal :=
  .next (s.raise (.dphRsvd dphReserved :: engineFaults s))

/-- The slot of position `i` within RENDER: its frame, of the captured digits (R158). -/
def State.sendSlot (s : State) (i : BitVec 2) : State :=
  let t := s.setDigit i
  match t.curWord with
  | .ok w => t.sendFrame w
  | .error c => s.raise [c]

/-- A multiplex cycle after its capture: four slots left to right, then LOAD again (R158, R156; log 11). -/
def State.sendCycle (s : State) : State :=
  ((((s.sendSlot 0#2).sendSlot 1#2).sendSlot 2#2).sendSlot 3#2).endCycle

/-- `RENDER v, en, pos` as a state (R158). -/
def State.renderValue (s : State) (v : BitVec 16) (en : Bool) (pos : BitVec 2) : State :=
  (s.capture (digits v) en pos).sendCycle

/-- `RENDER v, en, pos` (R158). -/
def execRender (v : BitVec 16) (en : Bool) (pos : BitVec 2) (s : State) : Host.Outcome State Fault Refusal :=
  .next (s.unlessFault (engineFaults s) (s.renderValue v en pos))

/-- `CLOCK_RENDER`: `RENDER (MIN*100 + SEC), 1, TIME_DP_POS`, its LOAD being LOAD_TIME (R84, R153). -/
def execClockRender (s : State) : Host.Outcome State Fault Refusal :=
  .next (s.unlessFault (engineFaults s ++ timeFaults s) (s.renderValue s.timeValue true timeDpPos))

/-- `EXT_RENDER`: `RENDER EXT_VALUE, EXT_DP_EN, EXT_DP_POS` (R84, R154). -/
def execExtRender (s : State) : Host.Outcome State Fault Refusal :=
  .next (s.unlessFault (engineFaults s) (s.renderValue s.inputs.extValue s.inputs.extDpEn s.inputs.extDpPos))

end Sys2Proof.Machine
end

