-- ==== Sys2Proof/Machine/Por.lean ====
section
/-! DEFINITION. Power-on reset (70_reset_and_hazards.md). -/
namespace Sys2Proof.Machine

/-- `POR`: from any state, the other inputs ignored (R250). -/
def execPor (_tresetIn _tickIn : Bool) (s : State) : Host.Outcome State Fault Refusal := .next s.blockReset

end Sys2Proof.Machine
end

