-- ==== Sys2Proof/Machine/Time.lean ====
section
/-! DEFINITION. The TIME unit (43_time_model.md). It writes SEC and MIN and nothing else (R197). -/
namespace Sys2Proof.Machine

/-- Seconds after a tick: exact sum, then the wrap at 60 (R190). -/
def nextSec (sec : BitVec 6) : BitVec 6 := if sec.toNat + 1 = secMod then 0#6 else BitVec.ofNat 6 (sec.toNat + 1)

/-- Minutes after a tick: they move only when the seconds wrap, and wrap at 100 (R190). -/
def nextMin (sec : BitVec 6) (min : BitVec 7) : BitVec 7 :=
  if sec.toNat + 1 = secMod then (if min.toNat + 1 = minMod then 0#7 else BitVec.ofNat 7 (min.toNat + 1)) else min

/-- `TICK` (R190, R199). -/
def execTick (s : State) : Host.Outcome State Fault Refusal :=
  .next (s.unlessFault (timeFaults s) (s.setTime (nextSec s.sec) (nextMin s.sec s.min)))

/-- `TRESET`: from any state; a tick at the same edge is discarded (R191, R193). -/
def execTreset (_tickIn : Bool) (s : State) : Host.Outcome State Fault Refusal := .next (s.setTime 0#6 0#7)

/-- `THOLD` (R192, R199). -/
def execThold (s : State) : Host.Outcome State Fault Refusal := .next (s.unlessFault (timeFaults s) s)

/-- `SNAPSHOT`: one read of both fields (R196). -/
def execSnapshot (s : State) : Host.Outcome State Fault Refusal := .next (s.setResult (.time s.outputs.seconds s.outputs.minutes))

end Sys2Proof.Machine
end

