-- ==== Sys2Proof/Machine/Dispatch.lean ====
section
/-! DEFINITION. One arm per operation of spec/opcode_table.json. -/
namespace Sys2Proof.Machine

def exec (i : Instr) (s : State) : Host.Outcome State Fault Refusal :=
  match i with
  | .encode0to7 d dp => Sys2Proof.Machine.execEncode0to7 d dp s
  | .encode8to9 d dp => Sys2Proof.Machine.execEncode8to9 d dp s
  | .encIllegal10to11 d dp => Sys2Proof.Machine.execEncIllegal10to11 d dp s
  | .encIllegal12to15 d dp => Sys2Proof.Machine.execEncIllegal12to15 d dp s
  | .latchLo n => Sys2Proof.Machine.execLatchLo n s
  | .sdataBit n => Sys2Proof.Machine.execSdataBit n s
  | .sclkHi n => Sys2Proof.Machine.execSclkHi n s
  | .sclkLo n => Sys2Proof.Machine.execSclkLo n s
  | .latchHi n => Sys2Proof.Machine.execLatchHi n s
  | .sactRsvd101 n => Sys2Proof.Machine.execSactRsvd101 n s
  | .sactRsvd11x p n => Sys2Proof.Machine.execSactRsvd11x p n s
  | .loadTime => Sys2Proof.Machine.execLoadTime s
  | .loadExt => Sys2Proof.Machine.execLoadExt s
  | .shift b => Sys2Proof.Machine.execShift b s
  | .settle b => Sys2Proof.Machine.execSettle b s
  | .dphRsvd b => Sys2Proof.Machine.execDphRsvd b s
  | .por a b => Sys2Proof.Machine.execPor a b s
  | .treset b => Sys2Proof.Machine.execTreset b s
  | .tick => Sys2Proof.Machine.execTick s
  | .thold => Sys2Proof.Machine.execThold s
  | .writeFrame seg sel => Sys2Proof.Machine.execWriteFrame seg sel s
  | .render v en pos => Sys2Proof.Machine.execRender v en pos s
  | .snapshot => Sys2Proof.Machine.execSnapshot s
  | .clockRender => Sys2Proof.Machine.execClockRender s
  | .extRender => Sys2Proof.Machine.execExtRender s

end Sys2Proof.Machine
end

