-- ==== Sys2Proof/Machine/Edge.lean ====
section
/-! DEFINITION. One clock edge of the whole block, and one directly applied operation. `step` chooses between them. -/
namespace Sys2Proof.Machine

/-- TIME's operation at the edge, chosen by `CTL` (R80). -/
def State.timeOp (s : State) : Instr := decodeCtl s.inputs.ctl

/-- The display engine's operation at the edge, chosen by `DSEL` (R77). -/
def State.displayOp (s : State) : Instr := decodeDsel s.dsel

/-- The display engine's half of an edge out of POR. Where TRESET acts at a LOAD_TIME edge the time is cleared, "so no fault is
raised" for it (R199), and LOAD_TIME captures what the registers held (log 5). -/
def State.displayUpdate (s : State) : Host.Outcome State Fault Refusal :=
  if s.inputs.treset = true ∧ s.dsel = 0b000#3 then .next (s.loadTime []) else exec s.displayOp s

/-- One rising edge of `CLK`, the inputs already on the ports. POR replaces both units' updates; otherwise both units run from the
same state and their writes land together (R10). -/
def clockEdge (s : State) : Host.Outcome State Fault Refusal :=
  match exec s.timeOp s with
  | .fault f => .fault f
  | .refused r => .refused r
  | .next t =>
    if s.inputs.rstN then
      match s.displayUpdate with
      | .fault f => .fault f
      | .refused r => .refused r
      | .next d => .next (s.joinUnits t d)
    else .next t.countEdge

/-- A test bench applies one operation by its word (R83, log 2). -/
def applyWord (w : OpWord) (s : State) : Host.Outcome State Fault Refusal :=
  match decode w with
  | .ok i => exec i s
  | .error e => .refused (.badOpWord e)

/-- The next item of the stimulus: a clock edge, a direct operation, or, when the stimulus is used up, an idle clock edge (log 3). -/
def State.runNext (s : State) : Host.Outcome State Fault Refusal :=
  match s.stim with
  | [] => clockEdge (s.sample s.inputs.idle [])
  | .edge inp :: rest => clockEdge (s.sample inp rest)
  | .op w :: rest => applyWord w { s with stim := rest }

/-- What a step may do: refuse a configuration that breaks R7, stop on a recorded fault (R220), or run the next item. -/
def State.stepChecked (s : State) : Host.Outcome State Fault Refusal :=
  if s.cfg.Valid then
    match s.faults with
    | [] => s.runNext
    | r :: _ => .fault (.recorded r)
  else .refused .badConfig

/-- The word of a table row, as a directly applied operation at the head of the stimulus (log 2). -/
def State.withDirectWord (s : State) (w : OpWord) : State := { s with stim := .op w :: s.stim }

/-- `k` edges of the display engine alone, TIME and the inputs held still: what the composite operations are compared with. -/
def engineRun : Nat → State → Host.Outcome State Fault Refusal
  | 0, s => .next s
  | k + 1, s =>
    match exec s.displayOp s with
    | .next t => engineRun k t
    | .fault f => .fault f
    | .refused r => .refused r

/-- `k` applications of one operation in a row. -/
def repeatOp (i : Instr) : Nat → State → Host.Outcome State Fault Refusal
  | 0, s => .next s
  | k + 1, s =>
    match exec i s with
    | .next t => repeatOp i k t
    | .fault f => .fault f
    | .refused r => .refused r

end Sys2Proof.Machine
end

