-- ==== Sys2Proof/Machine/Step.lean ====
section
/-! DEFINITION. The step, and how the host places one table row's word before it. -/
namespace Sys2Proof.Machine

/-- One step: the next item of the stimulus (R10, R220, R7). -/
def step (s : State) : Host.Outcome State Fault Refusal := s.stepChecked

/-- `s` with a table row's bits as the next item of its stimulus, so that the very next step runs it (log 2). -/
def State.withFetchWord (s : State) (nbits w : Nat) : State := s.withDirectWord (BitVec.ofNat 32 (w % 2 ^ nbits))

end Sys2Proof.Machine
end

