-- ==== Sys2Proof/Safety.lean ====
section
/-! DEFINITION. What counts as a legal state, in the terms the statements use. -/
namespace Sys2Proof.Machine

/-- SEC and MIN are in range (R24). -/
abbrev State.TimeInRange (s : State) : Prop := s.sec.toNat < 60 ∧ s.min.toNat < 100

/-- The display engine's registers hold none of the unreachable codes of R42. -/
abbrev State.EngineLegal (s : State) : Prop :=
  s.dph ≠ dphReserved ∧ s.sph ≤ sphLatchHi ∧ s.pcnt < s.cfg.phaseCycles ∧ s.scnt < s.cfg.settleCycles ∧
  (∀ k : Fin 4, s.rdig[k].toNat < 10) ∧ ((s.sph = sphLatchLo ∨ s.sph = sphLatchHi) → s.sbit = 0#4)

/-- A state of an admissible build with no unreachable code (R7, R24, R42). -/
abbrev State.Legal (s : State) : Prop := s.cfg.Valid ∧ s.TimeInRange ∧ s.EngineLegal

/-- The next stimulus item, if any, is a clock edge. -/
abbrev State.NextIsEdge (s : State) : Prop :=
  match s.stim with
  | .op _ :: _ => False
  | _ => True

/-- The segment byte that RENDER sends at position `i` of value `v`: the table's mask of the decimal digit, its point cleared where
shown (R158, R150, R151). -/
def slotMask (c : Config) (v : Nat) (en : Bool) (pos i : Fin 4) : Byte :=
  let m := c.segTable[v / 10 ^ (3 - i.val) % 10]'(Nat.mod_lt _ (by decide))
  if en = true ∧ pos = i then m &&& ~~~(1#8 <<< c.dpBit.val) else m

/-- Where the lines stand in each phase of a run from reset (R122 to R126, R129, R131): SCLK is high only from a CLK_HI action to
the CLK_LO action after it; SLATCH is low from the LATCH_LO action to the LATCH_HI action, and high while a digit settles; outside
SHIFT the serializer rests, after a frame or as reset left it; SCNT counts only in SETTLE. -/
abbrev State.LinesInPhase (s : State) : Prop :=
  (s.sclk = true ↔ s.dph = dphShift ∧ ((s.sph = sphClkHi ∧ s.pcnt ≠ 0) ∨ (s.sph = sphClkLo ∧ s.pcnt = 0))) ∧
  (s.dph = dphShift → ¬(s.sph = sphLatchLo ∧ s.pcnt = 0) → (s.slatch = true ↔ s.sph = sphLatchHi ∧ s.pcnt ≠ 0)) ∧
  (s.dph = dphSettle → s.slatch = true ∧ s.sph = sphLatchHi) ∧
  (s.dph = dphLoad → (s.slatch = true ∧ s.sph = sphLatchHi) ∨
    (s.slatch = false ∧ s.sdata = false ∧ s.sph = sphLatchLo)) ∧
  (s.dph ≠ dphShift → s.pcnt = 0) ∧ (s.dph ≠ dphSettle → s.scnt = 0)

end Sys2Proof.Machine
end

