-- ==== Sys2Proof/Certificates/Slice0/Obligations.lean ====
section
/-! DEFINITION. The statements for the provers. Each docstring names the rule or section it formalises, and says where a clause
rests on a choice of the model. -/

open Sys2Proof Sys2Proof.Machine

/-! ## Decoding (30_encoding.md) -/

/-- The selector rows of R77, R78, R79 and R80, code by code (`x` bits at both values). -/
def Obligations.SelectorRowsReadAsTheTables : Prop :=
  (decodeDsel 0b000#3 = .loadTime ∧ decodeDsel 0b001#3 = .loadExt ∧
    ∀ b : Bool, decodeDsel (0b01#2 ++ BitVec.ofBool b) = .shift b ∧ decodeDsel (0b10#2 ++ BitVec.ofBool b) = .settle b ∧
      decodeDsel (0b11#2 ++ BitVec.ofBool b) = .dphRsvd b) ∧
  (∀ n : BitVec 4, decodeSact (0b000#3 ++ n) = .latchLo n ∧ decodeSact (0b001#3 ++ n) = .sdataBit n ∧
    decodeSact (0b010#3 ++ n) = .sclkHi n ∧ decodeSact (0b011#3 ++ n) = .sclkLo n ∧
    decodeSact (0b100#3 ++ n) = .latchHi n ∧ decodeSact (0b101#3 ++ n) = .sactRsvd101 n ∧
    decodeSact (0b110#3 ++ n) = .sactRsvd11x 0b110#3 n ∧ decodeSact (0b111#3 ++ n) = .sactRsvd11x 0b111#3 n) ∧
  (∀ (d : BitVec 4) (dp : Bool),
    (d.toNat < 8 → decodeDig d dp = .encode0to7 d dp) ∧
    (d.toNat = 8 ∨ d.toNat = 9 → decodeDig d dp = .encode8to9 d dp) ∧
    (d.toNat = 10 ∨ d.toNat = 11 → decodeDig d dp = .encIllegal10to11 d dp) ∧
    (12 ≤ d.toNat → decodeDig d dp = .encIllegal12to15 d dp)) ∧
  (decodeCtl 0b000#3 = .thold ∧ decodeCtl 0b001#3 = .tick ∧
    ∀ b : Bool, decodeCtl (0b01#2 ++ BitVec.ofBool b) = .treset b ∧
      ∀ a : Bool, decodeCtl (0b1#1 ++ BitVec.ofBool a ++ BitVec.ofBool b) = .por a b)

/-- A few operation words written out bit by bit: tag of the model (log 1), code of the spec's table. -/
def Obligations.SampleWordsDecode : Prop :=
  decode 0b0001_000000000000000000010000_0101#32 = .ok (.encode0to7 5#4 true) ∧
  decode 0b0010_000000000000000000000_0011111#32 = .ok (.sdataBit 15#4) ∧
  decode 0b0011_0000000000000000000000000_001#32 = .ok .loadExt ∧
  decode 0b0100_0000000000000000000000000_011#32 = .ok (.treset true) ∧
  decode 0b0101_000000000000_00010010_00000010#32 = .ok (.writeFrame 0x12#8 0x02#8) ∧
  decode 0b0110_000000000_01_1_0000000111111101#32 = .ok (.render 509#16 true 1#2) ∧
  decode 0b1010_0000000000000000000000000000#32 = .error (.reservedTag 0b1010#4)

/-- Decode and encode agree, for every well-formed operation and every operand. -/
def Obligations.DecodeUndoesEncode : Prop := ∀ i : Instr, i.wf = true → decode (encode i) = .ok i

/-- Encode gives back every tagged word that decodes, so a decoded operation keeps every bit of its word. (A word of tag zero is a
bare table code, which has a tagged spelling as well: log 1.) -/
def Obligations.EncodeUndoesDecode : Prop :=
  ∀ (w : OpWord) (i : Instr), decode w = .ok i → wordTag w ≠ 0#4 → encode i = w

/-- Whatever the decoder accepts is well formed. -/
def Obligations.DecodedOperationsAreWellFormed : Prop := ∀ (w : OpWord) (i : Instr), decode w = .ok i → i.wf = true

/-! ## Encoder (40_segment_encoder.md) -/

/-- R100, R101: `ENC(d, 0) = SEG_TABLE[d]`, and `ENC(d, 1)` is that mask with bit DP_BIT cleared, which for the spec's DP_BIT = 7 is
`ENC(d, 0) & 8'h7F`; handed back by both ENCODE rows, nothing else changed. The field that holds the value handed back is the
model's log 10. -/
def Obligations.EncodeLooksUpTheTable : Prop :=
  ∀ (s : State) (d : BitVec 4) (dp : Bool) (h : d.toNat < 10),
    let m := s.cfg.segTable[d.toNat]
    let p := m &&& ~~~(1#8 <<< s.cfg.dpBit.val)
    let t := { s with result := some (.seg (if dp then p else m)) }
    (d.toNat < 8 → exec (.encode0to7 d dp) s = .next t) ∧ (8 ≤ d.toNat → exec (.encode8to9 d dp) s = .next t) ∧
    (s.cfg.dpBit = 7 → p = m &&& 0x7F#8)

/-- R104: the output table under the default SEG_TABLE, and the column with the point under any other table, DP_BIT being 7 (field:
log 10). -/
def Obligations.EncodeDefaultTableValues : Prop :=
  ∀ (s : State) (d : Fin 10), s.cfg.dpBit = 7 →
    (s.cfg.segTable = segTableDefault →
      exec (decodeDig (BitVec.ofNat 4 d.val) false) s = .next { s with result := some (.seg
        (#v[0xC0#8, 0xF9#8, 0xA4#8, 0xB0#8, 0x99#8, 0x92#8, 0x82#8, 0xF8#8, 0x80#8, 0x90#8][d])) } ∧
      exec (decodeDig (BitVec.ofNat 4 d.val) true) s = .next { s with result := some (.seg
        (#v[0x40#8, 0x79#8, 0x24#8, 0x30#8, 0x19#8, 0x12#8, 0x02#8, 0x78#8, 0x00#8, 0x10#8][d])) }) ∧
    exec (decodeDig (BitVec.ofNat 4 d.val) true) s = .next { s with result := some (.seg (s.cfg.segTable[d] &&& 0x7F#8)) }

/-- R102: an illegal digit is recorded with its value, nothing is handed back, and the model then takes no step. That the record
is a next state and the stop the step after it is log 4. -/
def Obligations.IllegalDigitIsRecorded : Prop :=
  ∀ (s : State) (d : BitVec 4) (dp : Bool),
    let t := { s with faults := s.faults ++ [{ cause := .encDigit d, edge := s.edge }] }
    (d.toNat = 10 ∨ d.toNat = 11 → exec (.encIllegal10to11 d dp) s = .next t) ∧
    (12 ≤ d.toNat → exec (.encIllegal12to15 d dp) s = .next t) ∧
    (s.cfg.Valid → ∃ r, step t = .fault (.recorded r))

/-! ## Serializer (41_serial_output.md) -/

/-- R122, R124, R125, R126 with the receiver of R134: each action writes one line, and only a rise reaches the receiver. -/
def Obligations.LatchAndClockActionsDriveOneLine : Prop :=
  ∀ (s : State) (n : BitVec 4),
    exec (.latchLo n) s = .next { s with slatch := false } ∧
    exec (.sclkHi n) s = .next { s with sclk := true, recv :=
      if s.sclk then s.recv
      else { s.recv with sr := s.recv.sr <<< 1 ||| (BitVec.ofBool s.sdata).setWidth 16 } } ∧
    exec (.sclkLo n) s = .next { s with sclk := false } ∧
    exec (.latchHi n) s = .next { s with slatch := true, recv :=
      if s.slatch then s.recv else { s.recv with out := s.recv.sr } }

/-- R152 with R151: the frame word of the slot is the digit's mask, its point cleared where shown, and the select byte. -/
def Obligations.FrameWordIsMaskAndSelect : Prop :=
  ∀ (s : State) (m : Byte), s.cfg.segTable[s.rdig[s.didx.toNat].toNat]? = some m →
    s.curWord = .ok ((if s.rdpen = true ∧ s.rdppos = s.didx then m &&& ~~~(1#8 <<< s.cfg.dpBit.val) else m) ++
      s.cfg.selTable[s.didx.toNat])

/-- R123 with R55 and R56: action n sends bit 7-n of the segment byte for n below 8, else bit 15-n of the select byte. -/
def Obligations.SdataBitSendsMostSignificantFirst : Prop :=
  ∀ (s : State) (n : BitVec 4) (seg sel : Byte), s.curWord = .ok (seg ++ sel) →
    exec (.sdataBit n) s = .next { s with
      sdata := if n.toNat < 8 then seg.getLsbD (7 - n.toNat) else sel.getLsbD (15 - n.toNat) }

/-- R127: a reserved serializer code is recorded, no line is written, and the model then takes no step (log 4). -/
def Obligations.ReservedActionsAreRecorded : Prop :=
  ∀ (s : State) (n : BitVec 4),
    exec (.sactRsvd101 n) s = .next { s with faults := s.faults ++ [{ cause := .sactRsvd 0b101#3, edge := s.edge }] } ∧
    (∀ x : Bool, exec (.sactRsvd11x (0b11#2 ++ BitVec.ofBool x) n) s = .next { s with
      faults := s.faults ++ [{ cause := .sactRsvd (0b11#2 ++ BitVec.ofBool x), edge := s.edge }] })

/-- R120: NEXT, and the action of each index 0..49 of a frame. -/
def Obligations.LineActionsFollowTheFrameOrder : Prop :=
  actionAt 0 = (sphLatchLo, 0#4) ∧ actionAt 49 = (sphLatchHi, 0#4) ∧
  (∀ n : Fin 16, actionAt (1 + 3 * n.val) = (sphData, BitVec.ofNat 4 n.val) ∧
    actionAt (2 + 3 * n.val) = (sphClkHi, BitVec.ofNat 4 n.val) ∧
    actionAt (3 + 3 * n.val) = (sphClkLo, BitVec.ofNat 4 n.val)) ∧
  (∀ j : Fin 49, nextAction (actionAt j.val).1 (actionAt j.val).2 = some (actionAt (j.val + 1))) ∧
  nextAction sphLatchHi 0#4 = none

/-- R128 with R134: from any receiver contents, a frame leaves SR and OUT equal to its word and the lines as R131 says; nothing
but the serializer moves. The sequencer's place afterwards is that of the frame's last SHIFT edge (log 11). -/
def Obligations.WriteFrameCommitsItsWord : Prop :=
  ∀ (s : State) (seg sel : Byte), s.EngineLegal → s.sclk = false →
    exec (.writeFrame seg sel) s = .next { s with
      sdata := sel.getLsbD 0, sclk := false, slatch := true
      recv := { sr := seg ++ sel, out := seg ++ sel }
      dph := dphSettle, sph := sphLatchHi, sbit := 0#4, pcnt := 0, scnt := 0 }

/-- R128, R133: the clocked engine, from the first SHIFT edge of a frame, is after 50 * PHASE_CYCLES edges exactly where
WRITE_FRAME of the slot's word is, for every admissible configuration. -/
def Obligations.ClockedFrameRefinesWriteFrame : Prop :=
  ∀ (s : State) (seg sel : Byte), s.EngineLegal → s.dph = dphShift → s.sph = sphLatchLo → s.pcnt = 0 →
    s.curWord = .ok (seg ++ sel) →
    ∃ t, exec (.writeFrame seg sel) s = .next t ∧ engineRun (50 * s.cfg.phaseCycles) s = .next t

/-! ## Display multiplexer (42_display_mux.md) -/

/-- R150: each digit is its decimal place, and is in 0..9. -/
def Obligations.DigitIsItsDecimalPlace : Prop :=
  ∀ v : BitVec 16,
    (digit v 0).toNat = v.toNat / 1000 % 10 ∧ (digit v 1).toNat = v.toNat / 100 % 10 ∧
    (digit v 2).toNat = v.toNat / 10 % 10 ∧ (digit v 3).toNat = v.toNat % 10 ∧ ∀ k, (digit v k).toNat < 10

/-- R162 and R160: the digits compose to the value, above 9999 to its four low decimal digits. -/
def Obligations.DigitsRecompose : Prop :=
  ∀ v : BitVec 16,
    let sum := 1000 * (digit v 0).toNat + 100 * (digit v 1).toNat + 10 * (digit v 2).toNat + (digit v 3).toNat
    sum = v.toNat % 10000 ∧ (v.toNat ≤ 9999 → sum = v.toNat)

/-- R153 and R161: LOAD_TIME captures the time's digits with the point on position 1 and starts the first slot; outside the time's
range it records `F_TIME_INV` and moves nothing. -/
def Obligations.LoadTimeCapturesTheTime : Prop :=
  ∀ s : State, s.EngineLegal →
    (s.sec.toNat < 60 ∧ s.min.toNat < 100 → exec .loadTime s = .next { s with
      rdig := #v[BitVec.ofNat 4 (s.min.toNat / 10), BitVec.ofNat 4 (s.min.toNat % 10),
        BitVec.ofNat 4 (s.sec.toNat / 10), BitVec.ofNat 4 (s.sec.toNat % 10)]
      rdpen := true, rdppos := 1#2
      didx := 0#2, sph := sphLatchLo, sbit := 0#4, pcnt := 0, dph := dphShift }) ∧
    (60 ≤ s.sec.toNat ∨ 100 ≤ s.min.toNat → exec .loadTime s = .next { s with
      faults := s.faults ++ [{ cause := .timeInv s.min s.sec, edge := s.edge }] })

/-- R154: LOAD_EXT captures the external ports, whatever the value, and starts the first slot. -/
def Obligations.LoadExtCapturesThePorts : Prop :=
  ∀ s : State, s.EngineLegal →
    exec .loadExt s = .next { s with
      rdig := #v[BitVec.ofNat 4 (s.inputs.extValue.toNat / 1000 % 10), BitVec.ofNat 4 (s.inputs.extValue.toNat / 100 % 10),
        BitVec.ofNat 4 (s.inputs.extValue.toNat / 10 % 10), BitVec.ofNat 4 (s.inputs.extValue.toNat % 10)]
      rdpen := s.inputs.extDpEn, rdppos := s.inputs.extDpPos
      didx := 0#2, sph := sphLatchLo, sbit := 0#4, pcnt := 0, dph := dphShift }

/-- R121 and R155: a SHIFT edge performs the action that SACT selects when its phase begins, counts the phase, and at its end goes
to the next action, or after LATCH_HI to SETTLE. -/
def Obligations.ShiftPerformsOneSerializerEdge : Prop :=
  ∀ (s : State) (b : Bool), s.EngineLegal →
    ∃ a, (s.pcnt = 0 → exec (decodeSact (s.sph ++ s.sbit)) s = .next a) ∧ (s.pcnt ≠ 0 → a = s) ∧
      exec (.shift b) s = .next (
        if s.pcnt + 1 < s.cfg.phaseCycles then { a with pcnt := s.pcnt + 1 }
        else match nextAction s.sph s.sbit with
          | some (p, n) => { a with sph := p, sbit := n, pcnt := 0 }
          | none => { a with pcnt := 0, dph := dphSettle, scnt := 0 })

/-- R156: SETTLE counts its interval, then starts the next position's slot, or after position 3 goes back to LOAD. -/
def Obligations.SettleHoldsThenAdvances : Prop :=
  ∀ (s : State) (b : Bool), s.EngineLegal →
    exec (.settle b) s = .next (
      if s.scnt + 1 < s.cfg.settleCycles then { s with scnt := s.scnt + 1 }
      else if s.didx.toNat = 3 then { s with scnt := 0, didx := 0#2, dph := dphLoad }
      else { s with
        scnt := 0, didx := BitVec.ofNat 2 (s.didx.toNat + 1)
        sph := sphLatchLo, sbit := 0#4, pcnt := 0, dph := dphShift })

/-- R157: the reserved phase is recorded and no state changes, whatever phase the state itself holds. -/
def Obligations.ReservedPhaseIsRecorded : Prop :=
  ∀ (s : State) (b : Bool), ({ s with dph := dphLoad } : State).EngineLegal →
    exec (.dphRsvd b) s = .next { s with faults := s.faults ++ [{ cause := .dphRsvd 0b11#2, edge := s.edge }] }

/-- R158, R159: RENDER is its capture, then WRITE_FRAME of each position's mask and select byte, 0 to 3, then LOAD again. -/
def Obligations.RenderSendsFourFramesInOrder : Prop :=
  ∀ (s : State) (v : BitVec 16) (en : Bool) (pos : BitVec 2), s.EngineLegal →
    ∃ s0 s1 s2 s3 s4,
      s0 = { s with
        rdig := #v[BitVec.ofNat 4 (v.toNat / 1000 % 10), BitVec.ofNat 4 (v.toNat / 100 % 10),
          BitVec.ofNat 4 (v.toNat / 10 % 10), BitVec.ofNat 4 (v.toNat % 10)]
        rdpen := en, rdppos := pos, didx := 0#2, sph := sphLatchLo, sbit := 0#4, pcnt := 0, dph := dphShift } ∧
      exec (.writeFrame (slotMask s.cfg v.toNat en pos.toFin 0) s.cfg.selTable[0]) s0 = .next s1 ∧
      exec (.writeFrame (slotMask s.cfg v.toNat en pos.toFin 1) s.cfg.selTable[1]) s1 = .next s2 ∧
      exec (.writeFrame (slotMask s.cfg v.toNat en pos.toFin 2) s.cfg.selTable[2]) s2 = .next s3 ∧
      exec (.writeFrame (slotMask s.cfg v.toNat en pos.toFin 3) s.cfg.selTable[3]) s3 = .next s4 ∧
      exec (.render v en pos) s = .next { s4 with dph := dphLoad }

/-- R84: CLOCK_RENDER is RENDER of MIN*100+SEC with the point on position 1; EXT_RENDER is RENDER of the external ports. -/
def Obligations.PseudoOperationsExpandToRender : Prop :=
  ∀ s : State, s.EngineLegal →
    (s.TimeInRange → ∃ t, exec .clockRender s = .next t ∧
      exec (.render (BitVec.ofNat 16 (s.min.toNat * 100 + s.sec.toNat)) true 1#2) s = .next t ∧
      t.dph = dphLoad ∧ t.faults = s.faults) ∧
    (∃ t, exec .extRender s = .next t ∧
      exec (.render s.inputs.extValue s.inputs.extDpEn s.inputs.extDpPos) s = .next t ∧
      t.dph = dphLoad ∧ t.faults = s.faults)

/-- R163 with R84 and R158: the clocked engine, from a LOAD edge, is after 1 + 4 * (50P + S) edges exactly where the one operation
CLOCK_RENDER or EXT_RENDER is, for every admissible configuration. -/
def Obligations.ClockedCycleRefinesRender : Prop :=
  ∀ s : State, s.EngineLegal → s.dph = dphLoad →
    (s.inputs.srcSel = false → s.TimeInRange → ∃ t, exec .clockRender s = .next t ∧
      engineRun (1 + 4 * (50 * s.cfg.phaseCycles + s.cfg.settleCycles)) s = .next t) ∧
    (s.inputs.srcSel = true → ∃ t, exec .extRender s = .next t ∧
      engineRun (1 + 4 * (50 * s.cfg.phaseCycles + s.cfg.settleCycles)) s = .next t)

/-- R163: from a LOAD edge of either source, digit i's frame latches at offset 1 + i*(50P + S) + 49P: SLATCH is low before that
edge and high after it, and the receiver's outputs then hold the digit's frame (receiver: R134, log 9). -/
def Obligations.DigitLatchesAtItsOffset : Prop :=
  ∀ (s : State) (i : Fin 4) (v : Nat) (en : Bool) (pos : BitVec 2), s.EngineLegal → s.dph = dphLoad → s.sclk = false →
    ((s.inputs.srcSel = true ∧ v = s.inputs.extValue.toNat ∧ en = s.inputs.extDpEn ∧ pos = s.inputs.extDpPos) ∨
      (s.inputs.srcSel = false ∧ s.TimeInRange ∧ v = s.min.toNat * 100 + s.sec.toNat ∧ en = true ∧ pos = 1#2)) →
    let offset := 1 + i.val * (50 * s.cfg.phaseCycles + s.cfg.settleCycles) + 49 * s.cfg.phaseCycles
    ∃ u t, engineRun offset s = .next u ∧ u.slatch = false ∧ engineRun (offset + 1) s = .next t ∧ t.slatch = true ∧
      t.recv.out = slotMask s.cfg v en pos.toFin i ++ s.cfg.selTable[i]

/-! ## TIME (43_time_model.md) -/

/-- R190: one tick counts one second, carries at 59, wraps silently at 99 minutes; outside the range it records `F_TIME_INV`. -/
def Obligations.TickCountsOneSecond : Prop :=
  ∀ s : State,
    (s.sec.toNat < 59 → s.min.toNat < 100 → exec .tick s = .next { s with sec := BitVec.ofNat 6 (s.sec.toNat + 1) }) ∧
    (s.sec.toNat = 59 → s.min.toNat < 99 → exec .tick s = .next { s with
      sec := 0#6, min := BitVec.ofNat 7 (s.min.toNat + 1) }) ∧
    (s.sec.toNat = 59 → s.min.toNat = 99 → exec .tick s = .next { s with sec := 0#6, min := 0#7 }) ∧
    (60 ≤ s.sec.toNat ∨ 100 ≤ s.min.toNat → exec .tick s = .next { s with
      faults := s.faults ++ [{ cause := .timeInv s.min s.sec, edge := s.edge }] })

/-- R191: TRESET clears the time from any state, in or out of its range, with or without a tick at the same edge. -/
def Obligations.TresetClearsTheTime : Prop :=
  ∀ (s : State) (tk : Bool), exec (.treset tk) s = .next { s with sec := 0#6, min := 0#7 }

/-- R192 and R199: THOLD changes nothing; outside the range it records `F_TIME_INV`. -/
def Obligations.TholdKeepsTheTime : Prop :=
  ∀ s : State, (s.TimeInRange → exec .thold s = .next s) ∧
    (¬s.TimeInRange → exec .thold s = .next { s with
      faults := s.faults ++ [{ cause := .timeInv s.min s.sec, edge := s.edge }] })

/-- R196: SNAPSHOT hands back both fields of one state, which is also what the ports show. -/
def Obligations.SnapshotReadsBothFields : Prop :=
  ∀ s : State, exec .snapshot s = .next { s with result := some (.time s.sec s.min) } ∧
    s.outputs.seconds = s.sec ∧ s.outputs.minutes = s.min

/-- R194: N ticks from 0, 0 give N mod 60 seconds and (N div 60) mod 100 minutes. -/
def Obligations.TicksCloseForm : Prop :=
  ∀ (s : State) (n : Nat), s.sec = 0#6 → s.min = 0#7 →
    repeatOp .tick n s = .next { s with sec := BitVec.ofNat 6 (n % 60), min := BitVec.ofNat 7 (n / 60 % 100) }

/-- R195: after an edge with a reset, the clocked machine shows the count of ticks since, whatever the display does meanwhile. -/
def Obligations.CountSinceTheLastReset : Prop :=
  ∀ (s : State) (x : Inputs) (ins : List Inputs) (rest : List Stimulus), s.Legal → s.faults = [] →
    (x.rstN = false ∨ x.treset = true) → (∀ y ∈ ins, y.rstN = true ∧ y.treset = false) →
    s.stim = .edge x :: ins.map .edge ++ rest →
    ∃ t, Host.Core.run core (1 + ins.length) s = .next t ∧ t.stim = rest ∧
      t.sec.toNat = ins.countP (·.tick) % 60 ∧ t.min.toNat = ins.countP (·.tick) / 60 % 100

/-- R198: SEC and MIN stay in range over every step, whatever the inputs and whatever the display engine holds, and are in range
after a POR of any state and at launch. -/
def Obligations.TimeRangeIsKept : Prop :=
  (∀ s t : State, s.TimeInRange → step s = .next t → t.TimeInRange) ∧
  (∀ (s t : State) (a b : Bool), exec (.por a b) s = .next t → t.TimeInRange) ∧ State.reset.TimeInRange

/-- R193: at a clock edge the first of POR, TRESET, TICK, THOLD acts on the time, and a tick that loses is not counted. -/
def Obligations.ResetOverTickAtOneEdge : Prop :=
  ∀ (s : State) (x : Inputs) (rest : List Stimulus), s.Legal → s.faults = [] → s.stim = .edge x :: rest →
    ∃ t, step s = .next t ∧
      (t.sec.toNat, t.min.toNat) =
        if x.rstN = false then (0, 0) else if x.treset = true then (0, 0)
        else if x.tick = true then ((s.sec.toNat + 1) % 60, (s.min.toNat + (s.sec.toNat + 1) / 60) % 100)
        else (s.sec.toNat, s.min.toNat)

/-- R197: a TIME operation writes SEC, MIN and the fault record only; a display or serializer operation writes neither. -/
def Obligations.UnitsWriteDisjointRegisters : Prop :=
  ∀ (i : Instr) (s t : State), exec i s = .next t →
    ((i = .tick ∨ i = .thold ∨ ∃ b, i = .treset b) → t = { s with sec := t.sec, min := t.min, faults := t.faults }) ∧
    (i.tag ≠ 4#4 → t.sec = s.sec ∧ t.min = s.min)

/-- R32: only serializer actions (alone, in SHIFT, in a composite) and POR write the lines; nothing else reaches the receiver. -/
def Obligations.OnlyTheSerializerWritesTheLines : Prop :=
  ∀ (i : Instr) (s t : State), exec i s = .next t →
    (i.tag = 1#4 ∨ i.tag = 7#4 ∨ i = .loadTime ∨ i = .loadExt ∨ (∃ b, i = .settle b) ∨ (∃ b, i = .dphRsvd b) ∨
      i = .tick ∨ i = .thold ∨ ∃ b, i = .treset b) →
    t.sdata = s.sdata ∧ t.sclk = s.sclk ∧ t.slatch = s.slatch ∧ t.recv = s.recv

/-! ## Reset, faults, configuration (10_state.md, 60_exceptions.md, 70_reset_and_hazards.md) -/

/-- R41 and R250: POR leaves every register of the block at its listed value and keeps the record of faults (R220). The receiver
keeps its outputs (R252, R134). That it keeps its chain SR too is the model's choice (R134 and vector Q4 against 93 U8: log 9). -/
def Obligations.PorSetsEveryRegister : Prop :=
  ∀ (s : State) (a b : Bool), exec (.por a b) s = .next { s with
    sec := 0#6, min := 0#7, dph := 0b00#2, didx := 0#2, sph := 0b000#3, sbit := 0#4, pcnt := 0, scnt := 0
    rdig := #v[0#4, 0#4, 0#4, 0#4], rdpen := false, rdppos := 0#2, sdata := false, sclk := false, slatch := false }

/-- R250, R252: a clock edge with RST_N = 0 resets the block from any state, a frame in progress or unreachable codes included, and
the receiver keeps its outputs. That it keeps its chain SR too is the model's choice (log 9). -/
def Obligations.ResetEdgeAbandonsTheFrame : Prop :=
  ∀ (s : State) (x : Inputs) (rest : List Stimulus), s.cfg.Valid → s.faults = [] → s.stim = .edge x :: rest →
    x.rstN = false →
    ∃ t, step s = .next t ∧ t.faults = [] ∧ t.recv = s.recv ∧ t.sdata = false ∧ t.sclk = false ∧ t.slatch = false ∧
      t.dph = dphLoad ∧ t.sec = 0#6 ∧ t.min = 0#7

/-- R41: State.reset holds the reset values, is legal, and its lines stand as R131 says before the first frame. (Configuration,
ports, stimulus and receiver at launch are the model's choices: logs 3, 6, 9.) -/
def Obligations.LaunchStateIsLegal : Prop :=
  State.reset.Legal ∧ State.reset.LinesInPhase ∧ State.reset.faults = [] ∧
  exec (.por false false) State.reset = .next State.reset

/-- R24, R42: from every legal state every step that answers a next state leaves a legal one: no unreachable code is reached. -/
def Obligations.StepsKeepLegality : Prop := ∀ s t : State, s.Legal → step s = .next t → t.Legal

/-- R221: from a legal state every clock edge answers a next state and records no fault. -/
def Obligations.LegalEdgesNeverFault : Prop :=
  ∀ s : State, s.Legal → s.faults = [] → s.NextIsEdge → ∃ t, step s = .next t ∧ t.faults = [] ∧ t.Legal

/-- R199, R220 code 4: time out of range at an edge with TICK or THOLD, so also at such a LOAD_TIME edge, is recorded and nothing
moves; an edge with TRESET or POR clears it with no fault, whatever the display engine does. That a LOAD_TIME at the edge of the
TRESET captures the digits of what the registers held is the model's reading (log 5); the record as a next state is log 4. -/
def Obligations.OutOfRangeTimeIsRecorded : Prop :=
  ∀ (s : State) (x : Inputs) (rest : List Stimulus), s.cfg.Valid → s.EngineLegal → s.faults = [] →
    (60 ≤ s.sec.toNat ∨ 100 ≤ s.min.toNat) → s.stim = .edge x :: rest →
    if x.rstN = true ∧ x.treset = false then
      step s = .next { s with
        inputs := x, stim := rest, edge := s.edge + 1
        faults := [{ cause := .timeInv s.min s.sec, edge := s.edge }] }
    else ∃ t, step s = .next t ∧ t.sec = 0#6 ∧ t.min = 0#7 ∧ t.faults = [] ∧
      (x.rstN = true → s.dph = dphLoad → x.srcSel = false → t.rdig =
        let v := s.min.toNat * 100 + s.sec.toNat
        #v[BitVec.ofNat 4 (v / 1000 % 10), BitVec.ofNat 4 (v / 100 % 10), BitVec.ofNat 4 (v / 10 % 10), BitVec.ofNat 4 (v % 10)])

/-- R42, R220 codes 2, 3 and 5: a clock edge out of POR from a state with an unreachable engine code records it, lowest code first,
and moves nothing; the model then takes no step. -/
def Obligations.UnreachableCodesAreRecorded : Prop :=
  ∀ (s : State) (x : Inputs) (rest : List Stimulus), s.cfg.Valid → ¬s.EngineLegal → s.faults = [] →
    s.stim = .edge x :: rest → x.rstN = true →
    ∃ (l : List FaultRecord) (t : State), step s = .next t ∧
      t = { s with inputs := x, stim := rest, edge := s.edge + 1, faults := l } ∧
      (s.dph = 0b11#2 → ⟨.dphRsvd 0b11#2, s.edge⟩ ∈ l) ∧
      (5 ≤ s.sph.toNat → ⟨.sactRsvd s.sph, s.edge⟩ ∈ l) ∧
      (s.cfg.phaseCycles ≤ s.pcnt → ⟨.stateInv .pcnt, s.edge⟩ ∈ l) ∧
      (s.cfg.settleCycles ≤ s.scnt → ⟨.stateInv .scnt, s.edge⟩ ∈ l) ∧
      (∀ k : Fin 4, 10 ≤ s.rdig[k].toNat → ⟨.stateInv .rdig, s.edge⟩ ∈ l) ∧
      ((s.sph.toNat = 0 ∨ s.sph.toNat = 4) → s.sbit ≠ 0#4 → ⟨.stateInv .sbit, s.edge⟩ ∈ l) ∧
      l.Pairwise (fun a b => a.cause.code ≤ b.cause.code) ∧
      ∃ r, step t = .fault (.recorded r)

/-- R220: no operation clears a record, POR included, and after one is recorded the model takes no further step (log 4). -/
def Obligations.RecordedFaultsAreSticky : Prop :=
  (∀ (i : Instr) (s t : State), exec i s = .next t → ∃ l, t.faults = s.faults ++ l) ∧
  (∀ (s : State) (r : FaultRecord) (l : List FaultRecord), s.cfg.Valid → s.faults = r :: l →
    step s = .fault (.recorded r))

/-- R54: no step changes a table or a parameter. -/
def Obligations.BuildTimeTablesNeverChange : Prop := ∀ s t : State, step s = .next t → t.cfg = s.cfg

/-- R7: a configuration that breaks a constraint is refused: a table entry whose decimal-point bit is 0, a select byte that is not
one-hot, two equal select bytes, no phase or settle cycle. -/
def Obligations.BrokenConfigurationIsRefused : Prop :=
  ∀ s : State,
    ((∃ d : Fin 10, s.cfg.segTable[d].getLsbD s.cfg.dpBit.val = false) ∨
      (∃ i : Fin 4, ∀ k : Fin 8, s.cfg.selTable[i] ≠ BitVec.ofNat 8 (2 ^ k.val)) ∨
      (∃ i j : Fin 4, i ≠ j ∧ s.cfg.selTable[i] = s.cfg.selTable[j]) ∨
      s.cfg.phaseCycles = 0 ∨ s.cfg.settleCycles = 0) →
    step s = .refused .badConfig

/-- R28, R29: in a legal state each counter fits the width the rule gives it. -/
def Obligations.CountersFitTheirWidths : Prop :=
  ∀ s : State, s.EngineLegal →
    s.pcnt < 2 ^ counterWidth s.cfg.phaseCycles ∧ s.scnt < 2 ^ counterWidth s.cfg.settleCycles

/-! ## The step (R10) and the whole machine -/

/-- The next item being a directly applied word that decodes, the step is exec of its operation (the model's log 2). -/
def Obligations.StepRunsTheDecodedOperation : Prop :=
  ∀ (s : State) (w : OpWord) (i : Instr) (rest : List Stimulus), s.cfg.Valid → s.faults = [] →
    s.stim = .op w :: rest → decode w = .ok i → step s = exec i { s with stim := rest }

/-- A table row's word, placed by withFetchWord, is what the very next step runs (the model's logs 1 and 2). -/
def Obligations.FetchWordRunsNext : Prop :=
  ∀ (s : State) (nbits w : Nat) (i : Instr), s.cfg.Valid → s.faults = [] → decodeTableWord nbits w = some i →
    step (s.withFetchWord nbits w) = exec i s

/-- R10: a clock edge runs TIME's operation, chosen by CTL, and the display engine's, chosen by DSEL, from the same state; if
neither records a fault, SEC and MIN come from the one and every other register from the other. A POR edge runs POR alone. With the
stimulus used up the edge is idle (the model's log 3). What an edge with a fault does stands in OutOfRangeTimeIsRecorded and
UnreachableCodesAreRecorded. -/
def Obligations.ClockEdgeRunsBothUnits : Prop :=
  ∀ (s : State) (x : Inputs) (rest : List Stimulus), s.cfg.Valid → s.faults = [] →
    ((s.stim = .edge x :: rest) ∨
      (s.stim = [] ∧ rest = [] ∧ x = { s.inputs with rstN := true, treset := false, tick := false })) →
    let u := { s with inputs := x, stim := rest }
    ∃ t d,
      exec (decodeCtl (BitVec.ofBool (!x.rstN) ++ BitVec.ofBool x.treset ++ BitVec.ofBool x.tick)) u = .next t ∧
      exec (decodeDsel (s.dph ++ BitVec.ofBool x.srcSel)) u = .next d ∧
      (x.rstN = true → t.faults = [] → d.faults = [] →
        step s = .next { d with sec := t.sec, min := t.min, edge := s.edge + 1 }) ∧
      (x.rstN = false → step s = .next { t with edge := s.edge + 1 })

/-- R60, R224: a LOAD_TIME at the edge of a TICK captures the time before the tick, both fields of one state. -/
def Obligations.LoadReadsTheTimeBeforeTheTick : Prop :=
  ∀ (s : State) (x : Inputs) (rest : List Stimulus), s.Legal → s.faults = [] → s.dph = dphLoad →
    s.stim = .edge x :: rest → x.rstN = true → x.treset = false → x.tick = true → x.srcSel = false →
    ∃ t, step s = .next t ∧
      t.rdig = #v[BitVec.ofNat 4 (s.min.toNat / 10), BitVec.ofNat 4 (s.min.toNat % 10),
        BitVec.ofNat 4 (s.sec.toNat / 10), BitVec.ofNat 4 (s.sec.toNat % 10)] ∧
      t.sec.toNat = (s.sec.toNat + 1) % 60 ∧ t.min.toNat = (s.min.toNat + (s.sec.toNat + 1) / 60) % 100

/-- R164, R225: outside a LOAD edge the display engine does not see the time: two legal states that differ only in SEC and MIN go to
states that differ only there. -/
def Obligations.DisplayIgnoresTimeBetweenLoads : Prop :=
  ∀ (s t : State) (x : Inputs) (rest : List Stimulus) (sec : BitVec 6) (min : BitVec 7), s.Legal → s.faults = [] →
    sec.toNat < 60 → min.toNat < 100 → s.dph ≠ dphLoad → s.stim = .edge x :: rest → step s = .next t →
    ∃ t', step { s with sec := sec, min := min } = .next t' ∧ t' = { t with sec := t'.sec, min := t'.min }

/-- R259: outside a LOAD edge SRC_SEL and the external inputs are not read: edges that differ only in them do the same. -/
def Obligations.SourceInputsReadOnlyAtLoad : Prop :=
  ∀ (s t : State) (x : Inputs) (src en : Bool) (v : BitVec 16) (pos : BitVec 2) (rest : List Stimulus), s.Legal →
    s.faults = [] → s.dph ≠ dphLoad → s.stim = .edge x :: rest → step s = .next t →
    let y := { x with srcSel := src, extValue := v, extDpEn := en, extDpPos := pos }
    step { s with stim := .edge y :: rest } = .next { t with inputs := y }

/-- R129, R131: the lines stand, in every phase, where the frame protocol puts them, and every clock edge keeps that. -/
def Obligations.LinesStayInPhase : Prop :=
  ∀ s t : State, s.Legal → s.LinesInPhase → s.NextIsEdge → step s = .next t → t.LinesInPhase

/-- R255: out of POR, SDATA never changes at the same edge as SCLK or SLATCH, and SCLK never with SLATCH. -/
def Obligations.OneLineChangesAtAnEdge : Prop :=
  ∀ s t : State, s.NextIsEdge → step s = .next t → t.inputs.rstN = true →
    (t.sdata ≠ s.sdata → t.sclk = s.sclk ∧ t.slatch = s.slatch) ∧ (t.sclk ≠ s.sclk → t.slatch = s.slatch)

/-- R126, R134, R256: at a clock edge SLATCH rises only as the LATCH_HI action of a frame, and the outputs then take the chain;
SCLK rises only as a CLK_HI action, and the chain then takes SDATA. -/
def Obligations.LinesRiseOnlyInTheirActions : Prop :=
  ∀ s t : State, s.Legal → s.NextIsEdge → step s = .next t →
    (s.slatch = false → t.slatch = true →
      s.dph = dphShift ∧ s.sph = sphLatchHi ∧ s.pcnt = 0 ∧ t.recv = { s.recv with out := s.recv.sr }) ∧
    (s.sclk = false → t.sclk = true →
      s.dph = dphShift ∧ s.sph = sphClkHi ∧ s.pcnt = 0 ∧
      t.recv = { s.recv with sr := s.recv.sr <<< 1 ||| (BitVec.ofBool s.sdata).setWidth 16 })
end

