-- ==== Sys2Proof/Laws/Decode.lean ====
section
/-! SUPPORT. Tag and payload of an encoded word, so that a proof about decoding never splits 32 bits. -/
namespace Sys2Proof

@[simp] theorem wordTag_append (tag : BitVec 4) (p : BitVec 28) : wordTag (tag ++ p) = tag := by
  apply BitVec.eq_of_getLsbD_eq
  intro k hk
  rw [wordTag, BitVec.getLsbD_extractLsb', BitVec.getLsbD_append]
  simp [hk]

@[simp] theorem wordPayload_append (tag : BitVec 4) (p : BitVec 28) : wordPayload (tag ++ p) = p := by
  apply BitVec.eq_of_getLsbD_eq
  intro k hk
  rw [wordPayload, BitVec.getLsbD_extractLsb', BitVec.getLsbD_append]
  simp [hk]

/-- A word is its tag and its payload. -/
theorem tag_append_payload (w : OpWord) : wordTag w ++ wordPayload w = w := by
  apply BitVec.eq_of_getLsbD_eq
  intro k hk
  refine (BitVec.getLsbD_append (x := wordTag w) (y := wordPayload w) (i := k)).trans ?_
  rw [wordTag, wordPayload, BitVec.getLsbD_extractLsb', BitVec.getLsbD_extractLsb']
  by_cases h : k < 28
  · simp [h]
  · simp [h, show k - 28 < 4 by omega, show 28 + (k - 28) = k by omega]

@[simp] theorem wordTag_encode (i : Instr) : wordTag (encode i) = i.tag := wordTag_append ..

@[simp] theorem wordPayload_encode (i : Instr) : wordPayload (encode i) = i.payload := wordPayload_append ..

/-- Decoding an encoded operation looks at its own tag and payload only. -/
theorem decode_encode_eq (i : Instr) : decode (encode i) = decodePayload i.tag i.payload := by
  simp [decode]

/-- No operation's tag is the bare-code tag. -/
theorem Instr.tag_ne_zero (i : Instr) : i.tag ≠ 0#4 := by
  cases i <;> simp [Instr.tag]

theorem whenUnused_ok {tag : BitVec 4} {z : Bool} {i j : Instr} (h : whenUnused tag z i = .ok j) : z = true ∧ i = j := by
  cases z
  · cases h
  · exact ⟨rfl, Except.ok.inj h⟩

/-- Every way a bare code decodes. -/
theorem decodeBare_ok {c : Byte} {i : Instr} (h : decodeBare c = .ok i) :
    i = decodeDsel (c.extractLsb' 0 3) ∨ i = decodeDig (c.extractLsb' 0 4) false ∨ i = decodeSact (c.extractLsb' 0 7) := by
  unfold decodeBare at h
  by_cases h8 : c.toNat < 8
  · rw [if_pos h8] at h
    exact .inl (Except.ok.inj h).symm
  by_cases h16 : c.toNat < 16
  · rw [if_neg h8, if_pos h16] at h
    exact .inr (.inl (Except.ok.inj h).symm)
  by_cases h128 : c.toNat < 128
  · rw [if_neg h8, if_neg h16, if_pos h128] at h
    exact .inr (.inr (Except.ok.inj h).symm)
  · rw [if_neg h8, if_neg h16, if_neg h128] at h
    cases h

/-- Every way a payload decodes: its tag, the bits that are zero, and the operation. -/
theorem decodePayload_ok {tag : BitVec 4} {p : BitVec 28} {i : Instr} (h : decodePayload tag p = .ok i) :
    (tag = 0#4 ∧ decodeBare (p.extractLsb' 0 8) = .ok i) ∨
    (tag = 1#4 ∧ p.extractLsb' 4 4 = 0#4 ∧ p.extractLsb' 9 19 = 0#19 ∧ i = decodeDig (p.extractLsb' 0 4) (p.getLsbD 8)) ∨
    (tag = 2#4 ∧ p.extractLsb' 7 21 = 0#21 ∧ i = decodeSact (p.extractLsb' 0 7)) ∨
    (tag = 3#4 ∧ p.extractLsb' 3 25 = 0#25 ∧ i = decodeDsel (p.extractLsb' 0 3)) ∨
    (tag = 4#4 ∧ p.extractLsb' 3 25 = 0#25 ∧ i = decodeCtl (p.extractLsb' 0 3)) ∨
    (tag = 5#4 ∧ p.extractLsb' 16 12 = 0#12 ∧ i = .writeFrame (p.extractLsb' 8 8) (p.extractLsb' 0 8)) ∨
    (tag = 6#4 ∧ p.extractLsb' 19 9 = 0#9 ∧ i = .render (p.extractLsb' 0 16) (p.getLsbD 16) (p.extractLsb' 17 2)) ∨
    (tag = 7#4 ∧ p = 0#28 ∧ i = .snapshot) ∨ (tag = 8#4 ∧ p = 0#28 ∧ i = .clockRender) ∨
    (tag = 9#4 ∧ p = 0#28 ∧ i = .extRender) := by
  unfold decodePayload at h
  by_cases t0 : tag = 0#4
  · rw [if_pos t0] at h
    by_cases hz : p.extractLsb' 8 20 = 0#20
    · rw [if_pos hz] at h
      exact .inl ⟨t0, h⟩
    · rw [if_neg hz] at h
      cases h
  rw [if_neg t0] at h
  by_cases t1 : tag = 1#4
  · rw [if_pos t1] at h
    have ⟨z, e⟩ := whenUnused_ok h
    simp only [Bool.and_eq_true, beq_iff_eq] at z
    exact .inr (.inl ⟨t1, z.1, z.2, e.symm⟩)
  rw [if_neg t1] at h
  by_cases t2 : tag = 2#4
  · rw [if_pos t2] at h
    have ⟨z, e⟩ := whenUnused_ok h
    exact .inr (.inr (.inl ⟨t2, beq_iff_eq.mp z, e.symm⟩))
  rw [if_neg t2] at h
  by_cases t3 : tag = 3#4
  · rw [if_pos t3] at h
    have ⟨z, e⟩ := whenUnused_ok h
    exact .inr (.inr (.inr (.inl ⟨t3, beq_iff_eq.mp z, e.symm⟩)))
  rw [if_neg t3] at h
  by_cases t4 : tag = 4#4
  · rw [if_pos t4] at h
    have ⟨z, e⟩ := whenUnused_ok h
    exact .inr (.inr (.inr (.inr (.inl ⟨t4, beq_iff_eq.mp z, e.symm⟩))))
  rw [if_neg t4] at h
  by_cases t5 : tag = 5#4
  · rw [if_pos t5] at h
    have ⟨z, e⟩ := whenUnused_ok h
    exact .inr (.inr (.inr (.inr (.inr (.inl ⟨t5, beq_iff_eq.mp z, e.symm⟩)))))
  rw [if_neg t5] at h
  by_cases t6 : tag = 6#4
  · rw [if_pos t6] at h
    have ⟨z, e⟩ := whenUnused_ok h
    exact .inr (.inr (.inr (.inr (.inr (.inr (.inl ⟨t6, beq_iff_eq.mp z, e.symm⟩))))))
  rw [if_neg t6] at h
  by_cases t7 : tag = 7#4
  · rw [if_pos t7] at h
    have ⟨z, e⟩ := whenUnused_ok h
    exact .inr (.inr (.inr (.inr (.inr (.inr (.inr (.inl ⟨t7, beq_iff_eq.mp z, e.symm⟩)))))))
  rw [if_neg t7] at h
  by_cases t8 : tag = 8#4
  · rw [if_pos t8] at h
    have ⟨z, e⟩ := whenUnused_ok h
    exact .inr (.inr (.inr (.inr (.inr (.inr (.inr (.inr (.inl ⟨t8, beq_iff_eq.mp z, e.symm⟩))))))))
  rw [if_neg t8] at h
  by_cases t9 : tag = 9#4
  · rw [if_pos t9] at h
    have ⟨z, e⟩ := whenUnused_ok h
    exact .inr (.inr (.inr (.inr (.inr (.inr (.inr (.inr (.inr ⟨t9, beq_iff_eq.mp z, e.symm⟩))))))))
  · rw [if_neg t9] at h
    cases h

end Sys2Proof
end

