-- ==== Sys2Proof/Laws/State.lean ====
section
/-! SUPPORT. Every named update of Machine/Ops.lean read back field by field, so that no proof unfolds a record update. -/
namespace Sys2Proof.Machine

/-! ### `State.raise` -/
@[simp] theorem State.raise_cfg (s : State) (cs : List FaultCause) : (s.raise cs).cfg = s.cfg := rfl
@[simp] theorem State.raise_sec (s : State) (cs : List FaultCause) : (s.raise cs).sec = s.sec := rfl
@[simp] theorem State.raise_min (s : State) (cs : List FaultCause) : (s.raise cs).min = s.min := rfl
@[simp] theorem State.raise_dph (s : State) (cs : List FaultCause) : (s.raise cs).dph = s.dph := rfl
@[simp] theorem State.raise_didx (s : State) (cs : List FaultCause) : (s.raise cs).didx = s.didx := rfl
@[simp] theorem State.raise_sph (s : State) (cs : List FaultCause) : (s.raise cs).sph = s.sph := rfl
@[simp] theorem State.raise_sbit (s : State) (cs : List FaultCause) : (s.raise cs).sbit = s.sbit := rfl
@[simp] theorem State.raise_pcnt (s : State) (cs : List FaultCause) : (s.raise cs).pcnt = s.pcnt := rfl
@[simp] theorem State.raise_scnt (s : State) (cs : List FaultCause) : (s.raise cs).scnt = s.scnt := rfl
@[simp] theorem State.raise_rdig (s : State) (cs : List FaultCause) : (s.raise cs).rdig = s.rdig := rfl
@[simp] theorem State.raise_rdpen (s : State) (cs : List FaultCause) : (s.raise cs).rdpen = s.rdpen := rfl
@[simp] theorem State.raise_rdppos (s : State) (cs : List FaultCause) : (s.raise cs).rdppos = s.rdppos := rfl
@[simp] theorem State.raise_sdata (s : State) (cs : List FaultCause) : (s.raise cs).sdata = s.sdata := rfl
@[simp] theorem State.raise_sclk (s : State) (cs : List FaultCause) : (s.raise cs).sclk = s.sclk := rfl
@[simp] theorem State.raise_slatch (s : State) (cs : List FaultCause) : (s.raise cs).slatch = s.slatch := rfl
@[simp] theorem State.raise_faults (s : State) (cs : List FaultCause) : (s.raise cs).faults = s.faults ++ (orderByCode cs).map fun c => { cause := c, edge := s.edge } := rfl
@[simp] theorem State.raise_edge (s : State) (cs : List FaultCause) : (s.raise cs).edge = s.edge := rfl
@[simp] theorem State.raise_inputs (s : State) (cs : List FaultCause) : (s.raise cs).inputs = s.inputs := rfl
@[simp] theorem State.raise_stim (s : State) (cs : List FaultCause) : (s.raise cs).stim = s.stim := rfl
@[simp] theorem State.raise_recv (s : State) (cs : List FaultCause) : (s.raise cs).recv = s.recv := rfl
@[simp] theorem State.raise_result (s : State) (cs : List FaultCause) : (s.raise cs).result = s.result := rfl

/-! ### `State.driveLines` -/
@[simp] theorem State.driveLines_cfg (s : State) (a b c : Bool) : (s.driveLines a b c).cfg = s.cfg := rfl
@[simp] theorem State.driveLines_sec (s : State) (a b c : Bool) : (s.driveLines a b c).sec = s.sec := rfl
@[simp] theorem State.driveLines_min (s : State) (a b c : Bool) : (s.driveLines a b c).min = s.min := rfl
@[simp] theorem State.driveLines_dph (s : State) (a b c : Bool) : (s.driveLines a b c).dph = s.dph := rfl
@[simp] theorem State.driveLines_didx (s : State) (a b c : Bool) : (s.driveLines a b c).didx = s.didx := rfl
@[simp] theorem State.driveLines_sph (s : State) (a b c : Bool) : (s.driveLines a b c).sph = s.sph := rfl
@[simp] theorem State.driveLines_sbit (s : State) (a b c : Bool) : (s.driveLines a b c).sbit = s.sbit := rfl
@[simp] theorem State.driveLines_pcnt (s : State) (a b c : Bool) : (s.driveLines a b c).pcnt = s.pcnt := rfl
@[simp] theorem State.driveLines_scnt (s : State) (a b c : Bool) : (s.driveLines a b c).scnt = s.scnt := rfl
@[simp] theorem State.driveLines_rdig (s : State) (a b c : Bool) : (s.driveLines a b c).rdig = s.rdig := rfl
@[simp] theorem State.driveLines_rdpen (s : State) (a b c : Bool) : (s.driveLines a b c).rdpen = s.rdpen := rfl
@[simp] theorem State.driveLines_rdppos (s : State) (a b c : Bool) : (s.driveLines a b c).rdppos = s.rdppos := rfl
@[simp] theorem State.driveLines_sdata (s : State) (a b c : Bool) : (s.driveLines a b c).sdata = a := rfl
@[simp] theorem State.driveLines_sclk (s : State) (a b c : Bool) : (s.driveLines a b c).sclk = b := rfl
@[simp] theorem State.driveLines_slatch (s : State) (a b c : Bool) : (s.driveLines a b c).slatch = c := rfl
@[simp] theorem State.driveLines_faults (s : State) (a b c : Bool) : (s.driveLines a b c).faults = s.faults := rfl
@[simp] theorem State.driveLines_edge (s : State) (a b c : Bool) : (s.driveLines a b c).edge = s.edge := rfl
@[simp] theorem State.driveLines_inputs (s : State) (a b c : Bool) : (s.driveLines a b c).inputs = s.inputs := rfl
@[simp] theorem State.driveLines_stim (s : State) (a b c : Bool) : (s.driveLines a b c).stim = s.stim := rfl
@[simp] theorem State.driveLines_recv (s : State) (a b c : Bool) : (s.driveLines a b c).recv = s.recv.observe s.sclk s.slatch a b c := rfl
@[simp] theorem State.driveLines_result (s : State) (a b c : Bool) : (s.driveLines a b c).result = s.result := rfl

/-! ### `State.setTime` -/
@[simp] theorem State.setTime_cfg (s : State) (x : BitVec 6) (y : BitVec 7) : (s.setTime x y).cfg = s.cfg := rfl
@[simp] theorem State.setTime_sec (s : State) (x : BitVec 6) (y : BitVec 7) : (s.setTime x y).sec = x := rfl
@[simp] theorem State.setTime_min (s : State) (x : BitVec 6) (y : BitVec 7) : (s.setTime x y).min = y := rfl
@[simp] theorem State.setTime_dph (s : State) (x : BitVec 6) (y : BitVec 7) : (s.setTime x y).dph = s.dph := rfl
@[simp] theorem State.setTime_didx (s : State) (x : BitVec 6) (y : BitVec 7) : (s.setTime x y).didx = s.didx := rfl
@[simp] theorem State.setTime_sph (s : State) (x : BitVec 6) (y : BitVec 7) : (s.setTime x y).sph = s.sph := rfl
@[simp] theorem State.setTime_sbit (s : State) (x : BitVec 6) (y : BitVec 7) : (s.setTime x y).sbit = s.sbit := rfl
@[simp] theorem State.setTime_pcnt (s : State) (x : BitVec 6) (y : BitVec 7) : (s.setTime x y).pcnt = s.pcnt := rfl
@[simp] theorem State.setTime_scnt (s : State) (x : BitVec 6) (y : BitVec 7) : (s.setTime x y).scnt = s.scnt := rfl
@[simp] theorem State.setTime_rdig (s : State) (x : BitVec 6) (y : BitVec 7) : (s.setTime x y).rdig = s.rdig := rfl
@[simp] theorem State.setTime_rdpen (s : State) (x : BitVec 6) (y : BitVec 7) : (s.setTime x y).rdpen = s.rdpen := rfl
@[simp] theorem State.setTime_rdppos (s : State) (x : BitVec 6) (y : BitVec 7) : (s.setTime x y).rdppos = s.rdppos := rfl
@[simp] theorem State.setTime_sdata (s : State) (x : BitVec 6) (y : BitVec 7) : (s.setTime x y).sdata = s.sdata := rfl
@[simp] theorem State.setTime_sclk (s : State) (x : BitVec 6) (y : BitVec 7) : (s.setTime x y).sclk = s.sclk := rfl
@[simp] theorem State.setTime_slatch (s : State) (x : BitVec 6) (y : BitVec 7) : (s.setTime x y).slatch = s.slatch := rfl
@[simp] theorem State.setTime_faults (s : State) (x : BitVec 6) (y : BitVec 7) : (s.setTime x y).faults = s.faults := rfl
@[simp] theorem State.setTime_edge (s : State) (x : BitVec 6) (y : BitVec 7) : (s.setTime x y).edge = s.edge := rfl
@[simp] theorem State.setTime_inputs (s : State) (x : BitVec 6) (y : BitVec 7) : (s.setTime x y).inputs = s.inputs := rfl
@[simp] theorem State.setTime_stim (s : State) (x : BitVec 6) (y : BitVec 7) : (s.setTime x y).stim = s.stim := rfl
@[simp] theorem State.setTime_recv (s : State) (x : BitVec 6) (y : BitVec 7) : (s.setTime x y).recv = s.recv := rfl
@[simp] theorem State.setTime_result (s : State) (x : BitVec 6) (y : BitVec 7) : (s.setTime x y).result = s.result := rfl

/-! ### `State.setResult` -/
@[simp] theorem State.setResult_cfg (s : State) (r : OpResult) : (s.setResult r).cfg = s.cfg := rfl
@[simp] theorem State.setResult_sec (s : State) (r : OpResult) : (s.setResult r).sec = s.sec := rfl
@[simp] theorem State.setResult_min (s : State) (r : OpResult) : (s.setResult r).min = s.min := rfl
@[simp] theorem State.setResult_dph (s : State) (r : OpResult) : (s.setResult r).dph = s.dph := rfl
@[simp] theorem State.setResult_didx (s : State) (r : OpResult) : (s.setResult r).didx = s.didx := rfl
@[simp] theorem State.setResult_sph (s : State) (r : OpResult) : (s.setResult r).sph = s.sph := rfl
@[simp] theorem State.setResult_sbit (s : State) (r : OpResult) : (s.setResult r).sbit = s.sbit := rfl
@[simp] theorem State.setResult_pcnt (s : State) (r : OpResult) : (s.setResult r).pcnt = s.pcnt := rfl
@[simp] theorem State.setResult_scnt (s : State) (r : OpResult) : (s.setResult r).scnt = s.scnt := rfl
@[simp] theorem State.setResult_rdig (s : State) (r : OpResult) : (s.setResult r).rdig = s.rdig := rfl
@[simp] theorem State.setResult_rdpen (s : State) (r : OpResult) : (s.setResult r).rdpen = s.rdpen := rfl
@[simp] theorem State.setResult_rdppos (s : State) (r : OpResult) : (s.setResult r).rdppos = s.rdppos := rfl
@[simp] theorem State.setResult_sdata (s : State) (r : OpResult) : (s.setResult r).sdata = s.sdata := rfl
@[simp] theorem State.setResult_sclk (s : State) (r : OpResult) : (s.setResult r).sclk = s.sclk := rfl
@[simp] theorem State.setResult_slatch (s : State) (r : OpResult) : (s.setResult r).slatch = s.slatch := rfl
@[simp] theorem State.setResult_faults (s : State) (r : OpResult) : (s.setResult r).faults = s.faults := rfl
@[simp] theorem State.setResult_edge (s : State) (r : OpResult) : (s.setResult r).edge = s.edge := rfl
@[simp] theorem State.setResult_inputs (s : State) (r : OpResult) : (s.setResult r).inputs = s.inputs := rfl
@[simp] theorem State.setResult_stim (s : State) (r : OpResult) : (s.setResult r).stim = s.stim := rfl
@[simp] theorem State.setResult_recv (s : State) (r : OpResult) : (s.setResult r).recv = s.recv := rfl
@[simp] theorem State.setResult_result (s : State) (r : OpResult) : (s.setResult r).result = some r := rfl

/-! ### `State.setAction` -/
@[simp] theorem State.setAction_cfg (s : State) (p : BitVec 3) (n : BitVec 4) (k : Nat) : (s.setAction p n k).cfg = s.cfg := rfl
@[simp] theorem State.setAction_sec (s : State) (p : BitVec 3) (n : BitVec 4) (k : Nat) : (s.setAction p n k).sec = s.sec := rfl
@[simp] theorem State.setAction_min (s : State) (p : BitVec 3) (n : BitVec 4) (k : Nat) : (s.setAction p n k).min = s.min := rfl
@[simp] theorem State.setAction_dph (s : State) (p : BitVec 3) (n : BitVec 4) (k : Nat) : (s.setAction p n k).dph = s.dph := rfl
@[simp] theorem State.setAction_didx (s : State) (p : BitVec 3) (n : BitVec 4) (k : Nat) : (s.setAction p n k).didx = s.didx := rfl
@[simp] theorem State.setAction_sph (s : State) (p : BitVec 3) (n : BitVec 4) (k : Nat) : (s.setAction p n k).sph = p := rfl
@[simp] theorem State.setAction_sbit (s : State) (p : BitVec 3) (n : BitVec 4) (k : Nat) : (s.setAction p n k).sbit = n := rfl
@[simp] theorem State.setAction_pcnt (s : State) (p : BitVec 3) (n : BitVec 4) (k : Nat) : (s.setAction p n k).pcnt = k := rfl
@[simp] theorem State.setAction_scnt (s : State) (p : BitVec 3) (n : BitVec 4) (k : Nat) : (s.setAction p n k).scnt = s.scnt := rfl
@[simp] theorem State.setAction_rdig (s : State) (p : BitVec 3) (n : BitVec 4) (k : Nat) : (s.setAction p n k).rdig = s.rdig := rfl
@[simp] theorem State.setAction_rdpen (s : State) (p : BitVec 3) (n : BitVec 4) (k : Nat) : (s.setAction p n k).rdpen = s.rdpen := rfl
@[simp] theorem State.setAction_rdppos (s : State) (p : BitVec 3) (n : BitVec 4) (k : Nat) : (s.setAction p n k).rdppos = s.rdppos := rfl
@[simp] theorem State.setAction_sdata (s : State) (p : BitVec 3) (n : BitVec 4) (k : Nat) : (s.setAction p n k).sdata = s.sdata := rfl
@[simp] theorem State.setAction_sclk (s : State) (p : BitVec 3) (n : BitVec 4) (k : Nat) : (s.setAction p n k).sclk = s.sclk := rfl
@[simp] theorem State.setAction_slatch (s : State) (p : BitVec 3) (n : BitVec 4) (k : Nat) : (s.setAction p n k).slatch = s.slatch := rfl
@[simp] theorem State.setAction_faults (s : State) (p : BitVec 3) (n : BitVec 4) (k : Nat) : (s.setAction p n k).faults = s.faults := rfl
@[simp] theorem State.setAction_edge (s : State) (p : BitVec 3) (n : BitVec 4) (k : Nat) : (s.setAction p n k).edge = s.edge := rfl
@[simp] theorem State.setAction_inputs (s : State) (p : BitVec 3) (n : BitVec 4) (k : Nat) : (s.setAction p n k).inputs = s.inputs := rfl
@[simp] theorem State.setAction_stim (s : State) (p : BitVec 3) (n : BitVec 4) (k : Nat) : (s.setAction p n k).stim = s.stim := rfl
@[simp] theorem State.setAction_recv (s : State) (p : BitVec 3) (n : BitVec 4) (k : Nat) : (s.setAction p n k).recv = s.recv := rfl
@[simp] theorem State.setAction_result (s : State) (p : BitVec 3) (n : BitVec 4) (k : Nat) : (s.setAction p n k).result = s.result := rfl

/-! ### `State.setDigit` -/
@[simp] theorem State.setDigit_cfg (s : State) (i : BitVec 2) : (s.setDigit i).cfg = s.cfg := rfl
@[simp] theorem State.setDigit_sec (s : State) (i : BitVec 2) : (s.setDigit i).sec = s.sec := rfl
@[simp] theorem State.setDigit_min (s : State) (i : BitVec 2) : (s.setDigit i).min = s.min := rfl
@[simp] theorem State.setDigit_dph (s : State) (i : BitVec 2) : (s.setDigit i).dph = s.dph := rfl
@[simp] theorem State.setDigit_didx (s : State) (i : BitVec 2) : (s.setDigit i).didx = i := rfl
@[simp] theorem State.setDigit_sph (s : State) (i : BitVec 2) : (s.setDigit i).sph = s.sph := rfl
@[simp] theorem State.setDigit_sbit (s : State) (i : BitVec 2) : (s.setDigit i).sbit = s.sbit := rfl
@[simp] theorem State.setDigit_pcnt (s : State) (i : BitVec 2) : (s.setDigit i).pcnt = s.pcnt := rfl
@[simp] theorem State.setDigit_scnt (s : State) (i : BitVec 2) : (s.setDigit i).scnt = s.scnt := rfl
@[simp] theorem State.setDigit_rdig (s : State) (i : BitVec 2) : (s.setDigit i).rdig = s.rdig := rfl
@[simp] theorem State.setDigit_rdpen (s : State) (i : BitVec 2) : (s.setDigit i).rdpen = s.rdpen := rfl
@[simp] theorem State.setDigit_rdppos (s : State) (i : BitVec 2) : (s.setDigit i).rdppos = s.rdppos := rfl
@[simp] theorem State.setDigit_sdata (s : State) (i : BitVec 2) : (s.setDigit i).sdata = s.sdata := rfl
@[simp] theorem State.setDigit_sclk (s : State) (i : BitVec 2) : (s.setDigit i).sclk = s.sclk := rfl
@[simp] theorem State.setDigit_slatch (s : State) (i : BitVec 2) : (s.setDigit i).slatch = s.slatch := rfl
@[simp] theorem State.setDigit_faults (s : State) (i : BitVec 2) : (s.setDigit i).faults = s.faults := rfl
@[simp] theorem State.setDigit_edge (s : State) (i : BitVec 2) : (s.setDigit i).edge = s.edge := rfl
@[simp] theorem State.setDigit_inputs (s : State) (i : BitVec 2) : (s.setDigit i).inputs = s.inputs := rfl
@[simp] theorem State.setDigit_stim (s : State) (i : BitVec 2) : (s.setDigit i).stim = s.stim := rfl
@[simp] theorem State.setDigit_recv (s : State) (i : BitVec 2) : (s.setDigit i).recv = s.recv := rfl
@[simp] theorem State.setDigit_result (s : State) (i : BitVec 2) : (s.setDigit i).result = s.result := rfl

/-! ### `State.endFrame` -/
@[simp] theorem State.endFrame_cfg (s : State) : (s.endFrame).cfg = s.cfg := rfl
@[simp] theorem State.endFrame_sec (s : State) : (s.endFrame).sec = s.sec := rfl
@[simp] theorem State.endFrame_min (s : State) : (s.endFrame).min = s.min := rfl
@[simp] theorem State.endFrame_dph (s : State) : (s.endFrame).dph = dphSettle := rfl
@[simp] theorem State.endFrame_didx (s : State) : (s.endFrame).didx = s.didx := rfl
@[simp] theorem State.endFrame_sph (s : State) : (s.endFrame).sph = s.sph := rfl
@[simp] theorem State.endFrame_sbit (s : State) : (s.endFrame).sbit = s.sbit := rfl
@[simp] theorem State.endFrame_pcnt (s : State) : (s.endFrame).pcnt = 0 := rfl
@[simp] theorem State.endFrame_scnt (s : State) : (s.endFrame).scnt = 0 := rfl
@[simp] theorem State.endFrame_rdig (s : State) : (s.endFrame).rdig = s.rdig := rfl
@[simp] theorem State.endFrame_rdpen (s : State) : (s.endFrame).rdpen = s.rdpen := rfl
@[simp] theorem State.endFrame_rdppos (s : State) : (s.endFrame).rdppos = s.rdppos := rfl
@[simp] theorem State.endFrame_sdata (s : State) : (s.endFrame).sdata = s.sdata := rfl
@[simp] theorem State.endFrame_sclk (s : State) : (s.endFrame).sclk = s.sclk := rfl
@[simp] theorem State.endFrame_slatch (s : State) : (s.endFrame).slatch = s.slatch := rfl
@[simp] theorem State.endFrame_faults (s : State) : (s.endFrame).faults = s.faults := rfl
@[simp] theorem State.endFrame_edge (s : State) : (s.endFrame).edge = s.edge := rfl
@[simp] theorem State.endFrame_inputs (s : State) : (s.endFrame).inputs = s.inputs := rfl
@[simp] theorem State.endFrame_stim (s : State) : (s.endFrame).stim = s.stim := rfl
@[simp] theorem State.endFrame_recv (s : State) : (s.endFrame).recv = s.recv := rfl
@[simp] theorem State.endFrame_result (s : State) : (s.endFrame).result = s.result := rfl

/-! ### `State.nextSlot` -/
@[simp] theorem State.nextSlot_cfg (s : State) : (s.nextSlot).cfg = s.cfg := rfl
@[simp] theorem State.nextSlot_sec (s : State) : (s.nextSlot).sec = s.sec := rfl
@[simp] theorem State.nextSlot_min (s : State) : (s.nextSlot).min = s.min := rfl
@[simp] theorem State.nextSlot_dph (s : State) : (s.nextSlot).dph = dphShift := rfl
@[simp] theorem State.nextSlot_didx (s : State) : (s.nextSlot).didx = s.didx + 1#2 := rfl
@[simp] theorem State.nextSlot_sph (s : State) : (s.nextSlot).sph = sphLatchLo := rfl
@[simp] theorem State.nextSlot_sbit (s : State) : (s.nextSlot).sbit = 0#4 := rfl
@[simp] theorem State.nextSlot_pcnt (s : State) : (s.nextSlot).pcnt = 0 := rfl
@[simp] theorem State.nextSlot_scnt (s : State) : (s.nextSlot).scnt = 0 := rfl
@[simp] theorem State.nextSlot_rdig (s : State) : (s.nextSlot).rdig = s.rdig := rfl
@[simp] theorem State.nextSlot_rdpen (s : State) : (s.nextSlot).rdpen = s.rdpen := rfl
@[simp] theorem State.nextSlot_rdppos (s : State) : (s.nextSlot).rdppos = s.rdppos := rfl
@[simp] theorem State.nextSlot_sdata (s : State) : (s.nextSlot).sdata = s.sdata := rfl
@[simp] theorem State.nextSlot_sclk (s : State) : (s.nextSlot).sclk = s.sclk := rfl
@[simp] theorem State.nextSlot_slatch (s : State) : (s.nextSlot).slatch = s.slatch := rfl
@[simp] theorem State.nextSlot_faults (s : State) : (s.nextSlot).faults = s.faults := rfl
@[simp] theorem State.nextSlot_edge (s : State) : (s.nextSlot).edge = s.edge := rfl
@[simp] theorem State.nextSlot_inputs (s : State) : (s.nextSlot).inputs = s.inputs := rfl
@[simp] theorem State.nextSlot_stim (s : State) : (s.nextSlot).stim = s.stim := rfl
@[simp] theorem State.nextSlot_recv (s : State) : (s.nextSlot).recv = s.recv := rfl
@[simp] theorem State.nextSlot_result (s : State) : (s.nextSlot).result = s.result := rfl

/-! ### `State.endCycle` -/
@[simp] theorem State.endCycle_cfg (s : State) : (s.endCycle).cfg = s.cfg := rfl
@[simp] theorem State.endCycle_sec (s : State) : (s.endCycle).sec = s.sec := rfl
@[simp] theorem State.endCycle_min (s : State) : (s.endCycle).min = s.min := rfl
@[simp] theorem State.endCycle_dph (s : State) : (s.endCycle).dph = dphLoad := rfl
@[simp] theorem State.endCycle_didx (s : State) : (s.endCycle).didx = 0#2 := rfl
@[simp] theorem State.endCycle_sph (s : State) : (s.endCycle).sph = s.sph := rfl
@[simp] theorem State.endCycle_sbit (s : State) : (s.endCycle).sbit = s.sbit := rfl
@[simp] theorem State.endCycle_pcnt (s : State) : (s.endCycle).pcnt = s.pcnt := rfl
@[simp] theorem State.endCycle_scnt (s : State) : (s.endCycle).scnt = 0 := rfl
@[simp] theorem State.endCycle_rdig (s : State) : (s.endCycle).rdig = s.rdig := rfl
@[simp] theorem State.endCycle_rdpen (s : State) : (s.endCycle).rdpen = s.rdpen := rfl
@[simp] theorem State.endCycle_rdppos (s : State) : (s.endCycle).rdppos = s.rdppos := rfl
@[simp] theorem State.endCycle_sdata (s : State) : (s.endCycle).sdata = s.sdata := rfl
@[simp] theorem State.endCycle_sclk (s : State) : (s.endCycle).sclk = s.sclk := rfl
@[simp] theorem State.endCycle_slatch (s : State) : (s.endCycle).slatch = s.slatch := rfl
@[simp] theorem State.endCycle_faults (s : State) : (s.endCycle).faults = s.faults := rfl
@[simp] theorem State.endCycle_edge (s : State) : (s.endCycle).edge = s.edge := rfl
@[simp] theorem State.endCycle_inputs (s : State) : (s.endCycle).inputs = s.inputs := rfl
@[simp] theorem State.endCycle_stim (s : State) : (s.endCycle).stim = s.stim := rfl
@[simp] theorem State.endCycle_recv (s : State) : (s.endCycle).recv = s.recv := rfl
@[simp] theorem State.endCycle_result (s : State) : (s.endCycle).result = s.result := rfl

/-! ### `State.countSettle` -/
@[simp] theorem State.countSettle_cfg (s : State) : (s.countSettle).cfg = s.cfg := rfl
@[simp] theorem State.countSettle_sec (s : State) : (s.countSettle).sec = s.sec := rfl
@[simp] theorem State.countSettle_min (s : State) : (s.countSettle).min = s.min := rfl
@[simp] theorem State.countSettle_dph (s : State) : (s.countSettle).dph = s.dph := rfl
@[simp] theorem State.countSettle_didx (s : State) : (s.countSettle).didx = s.didx := rfl
@[simp] theorem State.countSettle_sph (s : State) : (s.countSettle).sph = s.sph := rfl
@[simp] theorem State.countSettle_sbit (s : State) : (s.countSettle).sbit = s.sbit := rfl
@[simp] theorem State.countSettle_pcnt (s : State) : (s.countSettle).pcnt = s.pcnt := rfl
@[simp] theorem State.countSettle_scnt (s : State) : (s.countSettle).scnt = s.scnt + 1 := rfl
@[simp] theorem State.countSettle_rdig (s : State) : (s.countSettle).rdig = s.rdig := rfl
@[simp] theorem State.countSettle_rdpen (s : State) : (s.countSettle).rdpen = s.rdpen := rfl
@[simp] theorem State.countSettle_rdppos (s : State) : (s.countSettle).rdppos = s.rdppos := rfl
@[simp] theorem State.countSettle_sdata (s : State) : (s.countSettle).sdata = s.sdata := rfl
@[simp] theorem State.countSettle_sclk (s : State) : (s.countSettle).sclk = s.sclk := rfl
@[simp] theorem State.countSettle_slatch (s : State) : (s.countSettle).slatch = s.slatch := rfl
@[simp] theorem State.countSettle_faults (s : State) : (s.countSettle).faults = s.faults := rfl
@[simp] theorem State.countSettle_edge (s : State) : (s.countSettle).edge = s.edge := rfl
@[simp] theorem State.countSettle_inputs (s : State) : (s.countSettle).inputs = s.inputs := rfl
@[simp] theorem State.countSettle_stim (s : State) : (s.countSettle).stim = s.stim := rfl
@[simp] theorem State.countSettle_recv (s : State) : (s.countSettle).recv = s.recv := rfl
@[simp] theorem State.countSettle_result (s : State) : (s.countSettle).result = s.result := rfl

/-! ### `State.capture` -/
@[simp] theorem State.capture_cfg (s : State) (d : Vector (BitVec 4) 4) (en : Bool) (p : BitVec 2) : (s.capture d en p).cfg = s.cfg := rfl
@[simp] theorem State.capture_sec (s : State) (d : Vector (BitVec 4) 4) (en : Bool) (p : BitVec 2) : (s.capture d en p).sec = s.sec := rfl
@[simp] theorem State.capture_min (s : State) (d : Vector (BitVec 4) 4) (en : Bool) (p : BitVec 2) : (s.capture d en p).min = s.min := rfl
@[simp] theorem State.capture_dph (s : State) (d : Vector (BitVec 4) 4) (en : Bool) (p : BitVec 2) : (s.capture d en p).dph = dphShift := rfl
@[simp] theorem State.capture_didx (s : State) (d : Vector (BitVec 4) 4) (en : Bool) (p : BitVec 2) : (s.capture d en p).didx = 0#2 := rfl
@[simp] theorem State.capture_sph (s : State) (d : Vector (BitVec 4) 4) (en : Bool) (p : BitVec 2) : (s.capture d en p).sph = sphLatchLo := rfl
@[simp] theorem State.capture_sbit (s : State) (d : Vector (BitVec 4) 4) (en : Bool) (p : BitVec 2) : (s.capture d en p).sbit = 0#4 := rfl
@[simp] theorem State.capture_pcnt (s : State) (d : Vector (BitVec 4) 4) (en : Bool) (p : BitVec 2) : (s.capture d en p).pcnt = 0 := rfl
@[simp] theorem State.capture_scnt (s : State) (d : Vector (BitVec 4) 4) (en : Bool) (p : BitVec 2) : (s.capture d en p).scnt = s.scnt := rfl
@[simp] theorem State.capture_rdig (s : State) (d : Vector (BitVec 4) 4) (en : Bool) (p : BitVec 2) : (s.capture d en p).rdig = d := rfl
@[simp] theorem State.capture_rdpen (s : State) (d : Vector (BitVec 4) 4) (en : Bool) (p : BitVec 2) : (s.capture d en p).rdpen = en := rfl
@[simp] theorem State.capture_rdppos (s : State) (d : Vector (BitVec 4) 4) (en : Bool) (p : BitVec 2) : (s.capture d en p).rdppos = p := rfl
@[simp] theorem State.capture_sdata (s : State) (d : Vector (BitVec 4) 4) (en : Bool) (p : BitVec 2) : (s.capture d en p).sdata = s.sdata := rfl
@[simp] theorem State.capture_sclk (s : State) (d : Vector (BitVec 4) 4) (en : Bool) (p : BitVec 2) : (s.capture d en p).sclk = s.sclk := rfl
@[simp] theorem State.capture_slatch (s : State) (d : Vector (BitVec 4) 4) (en : Bool) (p : BitVec 2) : (s.capture d en p).slatch = s.slatch := rfl
@[simp] theorem State.capture_faults (s : State) (d : Vector (BitVec 4) 4) (en : Bool) (p : BitVec 2) : (s.capture d en p).faults = s.faults := rfl
@[simp] theorem State.capture_edge (s : State) (d : Vector (BitVec 4) 4) (en : Bool) (p : BitVec 2) : (s.capture d en p).edge = s.edge := rfl
@[simp] theorem State.capture_inputs (s : State) (d : Vector (BitVec 4) 4) (en : Bool) (p : BitVec 2) : (s.capture d en p).inputs = s.inputs := rfl
@[simp] theorem State.capture_stim (s : State) (d : Vector (BitVec 4) 4) (en : Bool) (p : BitVec 2) : (s.capture d en p).stim = s.stim := rfl
@[simp] theorem State.capture_recv (s : State) (d : Vector (BitVec 4) 4) (en : Bool) (p : BitVec 2) : (s.capture d en p).recv = s.recv := rfl
@[simp] theorem State.capture_result (s : State) (d : Vector (BitVec 4) 4) (en : Bool) (p : BitVec 2) : (s.capture d en p).result = s.result := rfl

/-! ### `State.blockReset` -/
@[simp] theorem State.blockReset_cfg (s : State) : (s.blockReset).cfg = s.cfg := rfl
@[simp] theorem State.blockReset_sec (s : State) : (s.blockReset).sec = 0#6 := rfl
@[simp] theorem State.blockReset_min (s : State) : (s.blockReset).min = 0#7 := rfl
@[simp] theorem State.blockReset_dph (s : State) : (s.blockReset).dph = dphLoad := rfl
@[simp] theorem State.blockReset_didx (s : State) : (s.blockReset).didx = 0#2 := rfl
@[simp] theorem State.blockReset_sph (s : State) : (s.blockReset).sph = sphLatchLo := rfl
@[simp] theorem State.blockReset_sbit (s : State) : (s.blockReset).sbit = 0#4 := rfl
@[simp] theorem State.blockReset_pcnt (s : State) : (s.blockReset).pcnt = 0 := rfl
@[simp] theorem State.blockReset_scnt (s : State) : (s.blockReset).scnt = 0 := rfl
@[simp] theorem State.blockReset_rdig (s : State) : (s.blockReset).rdig = #v[0#4, 0#4, 0#4, 0#4] := rfl
@[simp] theorem State.blockReset_rdpen (s : State) : (s.blockReset).rdpen = false := rfl
@[simp] theorem State.blockReset_rdppos (s : State) : (s.blockReset).rdppos = 0#2 := rfl
@[simp] theorem State.blockReset_sdata (s : State) : (s.blockReset).sdata = false := rfl
@[simp] theorem State.blockReset_sclk (s : State) : (s.blockReset).sclk = false := rfl
@[simp] theorem State.blockReset_slatch (s : State) : (s.blockReset).slatch = false := rfl
@[simp] theorem State.blockReset_faults (s : State) : (s.blockReset).faults = s.faults := rfl
@[simp] theorem State.blockReset_edge (s : State) : (s.blockReset).edge = s.edge := rfl
@[simp] theorem State.blockReset_inputs (s : State) : (s.blockReset).inputs = s.inputs := rfl
@[simp] theorem State.blockReset_stim (s : State) : (s.blockReset).stim = s.stim := rfl
@[simp] theorem State.blockReset_result (s : State) : (s.blockReset).result = s.result := rfl

/-! ### `State.sample` -/
@[simp] theorem State.sample_cfg (s : State) (i : Inputs) (rest : List Stimulus) : (s.sample i rest).cfg = s.cfg := rfl
@[simp] theorem State.sample_sec (s : State) (i : Inputs) (rest : List Stimulus) : (s.sample i rest).sec = s.sec := rfl
@[simp] theorem State.sample_min (s : State) (i : Inputs) (rest : List Stimulus) : (s.sample i rest).min = s.min := rfl
@[simp] theorem State.sample_dph (s : State) (i : Inputs) (rest : List Stimulus) : (s.sample i rest).dph = s.dph := rfl
@[simp] theorem State.sample_didx (s : State) (i : Inputs) (rest : List Stimulus) : (s.sample i rest).didx = s.didx := rfl
@[simp] theorem State.sample_sph (s : State) (i : Inputs) (rest : List Stimulus) : (s.sample i rest).sph = s.sph := rfl
@[simp] theorem State.sample_sbit (s : State) (i : Inputs) (rest : List Stimulus) : (s.sample i rest).sbit = s.sbit := rfl
@[simp] theorem State.sample_pcnt (s : State) (i : Inputs) (rest : List Stimulus) : (s.sample i rest).pcnt = s.pcnt := rfl
@[simp] theorem State.sample_scnt (s : State) (i : Inputs) (rest : List Stimulus) : (s.sample i rest).scnt = s.scnt := rfl
@[simp] theorem State.sample_rdig (s : State) (i : Inputs) (rest : List Stimulus) : (s.sample i rest).rdig = s.rdig := rfl
@[simp] theorem State.sample_rdpen (s : State) (i : Inputs) (rest : List Stimulus) : (s.sample i rest).rdpen = s.rdpen := rfl
@[simp] theorem State.sample_rdppos (s : State) (i : Inputs) (rest : List Stimulus) : (s.sample i rest).rdppos = s.rdppos := rfl
@[simp] theorem State.sample_sdata (s : State) (i : Inputs) (rest : List Stimulus) : (s.sample i rest).sdata = s.sdata := rfl
@[simp] theorem State.sample_sclk (s : State) (i : Inputs) (rest : List Stimulus) : (s.sample i rest).sclk = s.sclk := rfl
@[simp] theorem State.sample_slatch (s : State) (i : Inputs) (rest : List Stimulus) : (s.sample i rest).slatch = s.slatch := rfl
@[simp] theorem State.sample_faults (s : State) (i : Inputs) (rest : List Stimulus) : (s.sample i rest).faults = s.faults := rfl
@[simp] theorem State.sample_edge (s : State) (i : Inputs) (rest : List Stimulus) : (s.sample i rest).edge = s.edge := rfl
@[simp] theorem State.sample_inputs (s : State) (i : Inputs) (rest : List Stimulus) : (s.sample i rest).inputs = i := rfl
@[simp] theorem State.sample_stim (s : State) (i : Inputs) (rest : List Stimulus) : (s.sample i rest).stim = rest := rfl
@[simp] theorem State.sample_recv (s : State) (i : Inputs) (rest : List Stimulus) : (s.sample i rest).recv = s.recv := rfl
@[simp] theorem State.sample_result (s : State) (i : Inputs) (rest : List Stimulus) : (s.sample i rest).result = s.result := rfl

/-! ### `State.countEdge` -/
@[simp] theorem State.countEdge_cfg (s : State) : (s.countEdge).cfg = s.cfg := rfl
@[simp] theorem State.countEdge_sec (s : State) : (s.countEdge).sec = s.sec := rfl
@[simp] theorem State.countEdge_min (s : State) : (s.countEdge).min = s.min := rfl
@[simp] theorem State.countEdge_dph (s : State) : (s.countEdge).dph = s.dph := rfl
@[simp] theorem State.countEdge_didx (s : State) : (s.countEdge).didx = s.didx := rfl
@[simp] theorem State.countEdge_sph (s : State) : (s.countEdge).sph = s.sph := rfl
@[simp] theorem State.countEdge_sbit (s : State) : (s.countEdge).sbit = s.sbit := rfl
@[simp] theorem State.countEdge_pcnt (s : State) : (s.countEdge).pcnt = s.pcnt := rfl
@[simp] theorem State.countEdge_scnt (s : State) : (s.countEdge).scnt = s.scnt := rfl
@[simp] theorem State.countEdge_rdig (s : State) : (s.countEdge).rdig = s.rdig := rfl
@[simp] theorem State.countEdge_rdpen (s : State) : (s.countEdge).rdpen = s.rdpen := rfl
@[simp] theorem State.countEdge_rdppos (s : State) : (s.countEdge).rdppos = s.rdppos := rfl
@[simp] theorem State.countEdge_sdata (s : State) : (s.countEdge).sdata = s.sdata := rfl
@[simp] theorem State.countEdge_sclk (s : State) : (s.countEdge).sclk = s.sclk := rfl
@[simp] theorem State.countEdge_slatch (s : State) : (s.countEdge).slatch = s.slatch := rfl
@[simp] theorem State.countEdge_faults (s : State) : (s.countEdge).faults = s.faults := rfl
@[simp] theorem State.countEdge_edge (s : State) : (s.countEdge).edge = s.edge + 1 := rfl
@[simp] theorem State.countEdge_inputs (s : State) : (s.countEdge).inputs = s.inputs := rfl
@[simp] theorem State.countEdge_stim (s : State) : (s.countEdge).stim = s.stim := rfl
@[simp] theorem State.countEdge_recv (s : State) : (s.countEdge).recv = s.recv := rfl
@[simp] theorem State.countEdge_result (s : State) : (s.countEdge).result = s.result := rfl

/-- A POR moves no receiver edge: every line it writes goes low (R252). -/
@[simp] theorem State.blockReset_recv (s : State) : s.blockReset.recv = s.recv := by
  simp [State.blockReset, State.driveLines, Receiver.observe]

end Sys2Proof.Machine
end

