-- ==== Sys2Proof/Laws/Ops.lean ====
section
/-! SUPPORT. One lemma per shared operation that says all it can do: raising, joining the two units, the receiver, the encoder,
the frame word, digits. Cite these instead of unfolding. -/
namespace Sys2Proof.Machine

/-! ### Raising faults -/

@[simp] theorem orderByCode_nil : orderByCode [] = [] := rfl

@[simp] theorem orderByCode_single (c : FaultCause) : orderByCode [c] = [c] := by
  cases c <;> simp [orderByCode, FaultCause.code, List.eraseDups_cons]

/-- The order loses no cause and invents none. -/
theorem mem_orderByCode (c : FaultCause) (cs : List FaultCause) : c ∈ orderByCode cs ↔ c ∈ cs := by
  have hc : c.code ∈ [1, 2, 3, 4, 5] := by cases c <;> simp [FaultCause.code]
  simp only [orderByCode, List.mem_flatMap, List.mem_eraseDups, List.mem_filter, beq_iff_eq]
  constructor
  · rintro ⟨_, _, h, _⟩
    exact h
  · intro h
    exact ⟨c.code, hc, h, rfl⟩

theorem orderByCode_ne_nil {cs : List FaultCause} (h : cs ≠ []) : orderByCode cs ≠ [] := by
  obtain ⟨c, hc⟩ := List.exists_mem_of_ne_nil cs h
  exact List.ne_nil_of_mem ((mem_orderByCode c cs).mpr hc)

@[simp] theorem mem_causeIf (p : Prop) [Decidable p] (c x : FaultCause) : x ∈ causeIf p c ↔ p ∧ x = c := by
  unfold causeIf
  split <;> simp_all

@[simp] theorem causeIf_eq_nil (p : Prop) [Decidable p] (c : FaultCause) : causeIf p c = [] ↔ ¬p := by
  unfold causeIf
  split <;> simp_all

@[simp] theorem State.unlessFault_nil (s t : State) : s.unlessFault [] t = t := rfl

theorem State.unlessFault_of_ne_nil (s t : State) {cs : List FaultCause} (h : cs ≠ []) :
    s.unlessFault cs t = s.raise cs := by
  cases cs with
  | nil => exact absurd rfl h
  | cons c rest => rfl

/-- Either nothing was raised and the meaning's state stands, or only the record grew. -/
theorem State.unlessFault_cases (s t : State) (cs : List FaultCause) :
    (cs = [] ∧ s.unlessFault cs t = t) ∨ (cs ≠ [] ∧ s.unlessFault cs t = s.raise cs) := by
  cases cs with
  | nil => exact .inl ⟨rfl, rfl⟩
  | cons c rest => exact .inr ⟨by simp, rfl⟩

/-! ### Joining the units of an edge -/

theorem newCauses_of_faults_eq {s t : State} (h : t.faults = s.faults) : newCauses s t = [] := by
  simp [newCauses, h]

theorem newCauses_raise (s : State) (cs : List FaultCause) : newCauses s (s.raise cs) = orderByCode cs := by
  simp [newCauses, Function.comp_def]

/-- An edge at which neither unit raised. -/
theorem State.joinUnits_quiet {s t d : State} (ht : t.faults = s.faults) (hd : d.faults = s.faults) :
    s.joinUnits t d = (d.setTime t.sec t.min).countEdge := by
  simp [State.joinUnits, newCauses_of_faults_eq ht, newCauses_of_faults_eq hd]

/-- An edge either moves both units or moves nothing but the record and the edge number. -/
theorem State.joinUnits_cases (s t d : State) :
    s.joinUnits t d = (d.setTime t.sec t.min).countEdge ∨
    ∃ cs, cs ≠ [] ∧ s.joinUnits t d = (s.raise cs).countEdge := by
  rcases s.unlessFault_cases (d.setTime t.sec t.min) (newCauses s t ++ newCauses s d) with ⟨-, h⟩ | ⟨hne, h⟩
  · exact .inl (by rw [State.joinUnits, h])
  · exact .inr ⟨_, hne, by rw [State.joinUnits, h]⟩

/-! ### The receiver -/

/-- No rising edge, no effect (R61, R134). -/
theorem Receiver.observe_no_rise (r : Receiver) {c0 l0 d c l : Bool} (hc : c = true → c0 = true)
    (hl : l = true → l0 = true) : r.observe c0 l0 d c l = r := by
  cases c0 <;> cases l0 <;> cases c <;> cases l <;> simp_all [Receiver.observe]

/-- A rise of SCLK alone shifts SDATA in (R134). -/
theorem Receiver.observe_shift (r : Receiver) (d l : Bool) :
    r.observe false l d true l = { r with sr := r.sr.extractLsb' 0 15 ++ BitVec.ofBool d } := by
  cases l <;> simp [Receiver.observe]

/-- One bit in at the low end, as a shift and an or. -/
theorem shiftIn_eq (r : BitVec 16) (b : Bool) :
    r.extractLsb' 0 15 ++ BitVec.ofBool b = r <<< 1 ||| (BitVec.ofBool b).setWidth 16 := by
  apply BitVec.eq_of_getLsbD_eq
  intro i hi
  have e := BitVec.getLsbD_append (x := r.extractLsb' 0 15) (y := BitVec.ofBool b) (i := i)
  refine e.trans ?_
  rw [BitVec.getLsbD_or, BitVec.getLsbD_shiftLeft, BitVec.getLsbD_setWidth, BitVec.getLsbD_extractLsb']
  rcases i with _ | i
  · simp
  · simp [show i < 15 by omega, show i + 1 < 16 by omega]

/-- A rise of SLATCH alone commits the chain (R134). -/
theorem Receiver.observe_commit (r : Receiver) (d c : Bool) :
    r.observe c false d c true = { r with out := r.sr } := by
  cases c <;> simp [Receiver.observe]

/-! ### Digits, encoder, frame word -/

@[simp] theorem digit_toNat (v : BitVec 16) (k : Fin 4) : (digit v k).toNat = v.toNat / 10 ^ (3 - k.val) % 10 := by
  have : v.toNat / 10 ^ (3 - k.val) % 10 < 10 := Nat.mod_lt _ (by decide)
  simp only [digit, BitVec.toNat_ofNat]
  omega

theorem digit_lt_ten (v : BitVec 16) (k : Fin 4) : (digit v k).toNat < 10 := by
  rw [digit_toNat]
  exact Nat.mod_lt _ (by decide)

theorem digits_get (v : BitVec 16) (k : Fin 4) : (digits v)[k] = digit v k := by
  match k with
  | 0 => rfl
  | 1 => rfl
  | 2 => rfl
  | 3 => rfl

/-- Under the spec's DP_BIT = 7 the point clears bit 7 (R100). -/
theorem Config.withPoint_of_seven {c : Config} (h : c.dpBit = 7) (p : Byte) : c.withPoint p = p &&& 0x7F#8 := by
  rw [Config.withPoint, h]
  rfl

theorem enc_of_lt (c : Config) {d : BitVec 4} (dp : Bool) (h : d.toNat < 10) :
    enc c d dp = .ok (if dp then c.withPoint c.segTable[d.toNat] else c.segTable[d.toNat]) := by
  simp only [enc, h, dite_true, Config.segRom]
  cases dp <;> rfl

theorem enc_of_ge (c : Config) {d : BitVec 4} (dp : Bool) (h : 10 ≤ d.toNat) : enc c d dp = .error (.encDigit d) := by
  simp [enc, Nat.not_lt.mpr h]

/-- A digit in range has a frame word (R152). -/
theorem State.curWord_of_lt (s : State) (h : (s.rdigAt s.didx).toNat < 10) :
    s.curWord = .ok ((if s.decimalOn then s.cfg.withPoint s.cfg.segTable[(s.rdigAt s.didx).toNat]
      else s.cfg.segTable[(s.rdigAt s.didx).toNat]) ++ s.cfg.selRom s.didx) := by
  simp [State.curWord, enc_of_lt s.cfg s.decimalOn h]

/-- The frame word is a function of the configuration, the render registers and the digit position alone (R33). -/
theorem State.curWord_congr {s t : State} (hc : t.cfg = s.cfg) (hr : t.rdig = s.rdig) (he : t.rdpen = s.rdpen)
    (hp : t.rdppos = s.rdppos) (hi : t.didx = s.didx) : t.curWord = s.curWord := by
  simp [State.curWord, State.rdigAt, State.decimalOn, hc, hr, he, hp, hi]

end Sys2Proof.Machine
end

