-- ==== Sys2Proof/Laws/Legal.lean ====
section
/-! SUPPORT. The fault conditions of Flags.lean read as the legality predicates of Safety.lean. -/
namespace Sys2Proof.Machine

/-- No fault condition of the time holds exactly when the time is in range (R199). -/
theorem timeFaults_eq_nil (s : State) : timeFaults s = [] ↔ s.TimeInRange := by
  rw [timeFaults, causeIf_eq_nil]
  simp only [State.TimeInRange, secMod, minMod]
  omega

theorem timeFaults_of_not {s : State} (h : ¬s.TimeInRange) : timeFaults s = [.timeInv s.min s.sec] := by
  have : secMod ≤ s.sec.toNat ∨ minMod ≤ s.min.toNat := by
    simp only [State.TimeInRange, secMod, minMod] at *
    omega
  simp [timeFaults, causeIf, this]

/-- No fault condition of the engine holds exactly when its codes are legal (R42). -/
theorem engineFaults_eq_nil (s : State) : engineFaults s = [] ↔ s.EngineLegal := by
  have hs : ¬(sphLatchHi < s.sph) ↔ s.sph ≤ sphLatchHi := BitVec.not_lt
  simp only [engineFaults, List.append_eq_nil_iff, causeIf_eq_nil, State.EngineLegal, hs, Nat.not_le, not_exists,
    not_and, Classical.not_not, and_assoc, ne_eq]

/-- In a legal state every position has a frame word (R102: the illegal input is unreachable). -/
theorem State.EngineLegal.curWord {s : State} (h : s.EngineLegal) : ∃ w, s.curWord = .ok w :=
  ⟨_, s.curWord_of_lt (h.2.2.2.2.1 ⟨s.didx.toNat, s.didx.isLt⟩)⟩

end Sys2Proof.Machine
end

