-- ==== Sys2Proof/Laws/Frames.lean ====
section
/-! SUPPORT. What the display engine and the serializer leave alone, said once as a relation and shown for every shared operation;
and what every operation leaves alone. -/
namespace Sys2Proof.Machine

/-- Every operation answers a next state. -/
theorem exec_next (i : Instr) (s : State) : ∃ t, exec i s = .next t := by
  cases i <;> exact ⟨_, rfl⟩

/-- `t` differs from `s` at most in the display engine's registers, the lines, the receiver, and records added. -/
structure EngineFrame (s t : State) : Prop where
  cfg : t.cfg = s.cfg
  sec : t.sec = s.sec
  min : t.min = s.min
  edge : t.edge = s.edge
  inputs : t.inputs = s.inputs
  stim : t.stim = s.stim
  result : t.result = s.result
  faults : ∃ l, t.faults = s.faults ++ l

namespace EngineFrame

theorem refl (s : State) : EngineFrame s s := ⟨rfl, rfl, rfl, rfl, rfl, rfl, rfl, [], by simp⟩

theorem trans {s t u : State} (h : EngineFrame s t) (k : EngineFrame t u) : EngineFrame s u := by
  obtain ⟨l, hl⟩ := h.faults
  obtain ⟨m, hm⟩ := k.faults
  exact ⟨k.cfg.trans h.cfg, k.sec.trans h.sec, k.min.trans h.min, k.edge.trans h.edge, k.inputs.trans h.inputs,
    k.stim.trans h.stim, k.result.trans h.result, l ++ m, by rw [hm, hl, List.append_assoc]⟩

theorem raise (s : State) (cs : List FaultCause) : EngineFrame s (s.raise cs) := ⟨rfl, rfl, rfl, rfl, rfl, rfl, rfl, _, rfl⟩

/-- An update that touches only the engine's own fields. -/
theorem of_same_faults {s t : State} (h : t.cfg = s.cfg ∧ t.sec = s.sec ∧ t.min = s.min ∧ t.edge = s.edge ∧
    t.inputs = s.inputs ∧ t.stim = s.stim ∧ t.result = s.result ∧ t.faults = s.faults) : EngineFrame s t :=
  ⟨h.1, h.2.1, h.2.2.1, h.2.2.2.1, h.2.2.2.2.1, h.2.2.2.2.2.1, h.2.2.2.2.2.2.1, [], by simp [h.2.2.2.2.2.2.2]⟩

theorem driveLines (s : State) (a b c : Bool) : EngineFrame s (s.driveLines a b c) := of_same_faults (by simp)

theorem setAction (s : State) (p : BitVec 3) (n : BitVec 4) (k : Nat) : EngineFrame s (s.setAction p n k) :=
  of_same_faults (by simp)

theorem setDigit (s : State) (i : BitVec 2) : EngineFrame s (s.setDigit i) := of_same_faults (by simp)

theorem endFrame (s : State) : EngineFrame s s.endFrame := of_same_faults (by simp)

theorem endCycle (s : State) : EngineFrame s s.endCycle := of_same_faults (by simp)

theorem capture (s : State) (d : Vector (BitVec 4) 4) (en : Bool) (p : BitVec 2) : EngineFrame s (s.capture d en p) :=
  of_same_faults (by simp)

theorem unlessFault {s t : State} (h : EngineFrame s t) (cs : List FaultCause) : EngineFrame s (s.unlessFault cs t) := by
  rcases s.unlessFault_cases t cs with ⟨-, e⟩ | ⟨-, e⟩ <;> rw [e]
  · exact h
  · exact raise s cs

theorem loadTime (s : State) (cs : List FaultCause) : EngineFrame s (s.loadTime cs) := (capture ..).unlessFault _

theorem sdataBit (s : State) (n : BitVec 4) : EngineFrame s (s.sdataBit n) := by
  unfold State.sdataBit
  split
  · exact driveLines ..
  · exact raise ..

theorem lineAction (s : State) : EngineFrame s s.lineAction := by
  unfold State.lineAction
  repeat' split
  all_goals first
    | exact driveLines ..
    | exact sdataBit ..
    | exact raise ..

theorem advance (s : State) : EngineFrame s s.advance := by
  unfold State.advance
  repeat' split
  all_goals first
    | exact setAction ..
    | exact endFrame ..

theorem serStep (s : State) : EngineFrame s s.serStep := by
  unfold State.serStep
  split
  · exact (lineAction s).trans (advance _)
  · exact advance s

theorem settleStep (s : State) : EngineFrame s s.settleStep := by
  unfold State.settleStep
  repeat' split
  all_goals exact of_same_faults (by simp)

theorem pulseBit (s : State) (b : Bool) : EngineFrame s (s.pulseBit b) :=
  ((driveLines ..).trans (driveLines ..)).trans (driveLines ..)

theorem pulses (w : Frame) (ns : List Nat) (s : State) :
    EngineFrame s (ns.foldl (fun t n => t.pulseBit (w.getLsbD (15 - n))) s) := by
  induction ns generalizing s with
  | nil => exact refl s
  | cons n ns ih => exact (pulseBit s _).trans (ih _)

theorem frameLines (s : State) (w : Frame) : EngineFrame s (s.frameLines w) :=
  ((driveLines ..).trans (pulses w _ _)).trans (driveLines ..)

theorem sendFrame (s : State) (w : Frame) : EngineFrame s (s.sendFrame w) :=
  ((frameLines s w).trans (setAction ..)).trans (endFrame _)

theorem sendSlot (s : State) (i : BitVec 2) : EngineFrame s (s.sendSlot i) := by
  unfold State.sendSlot
  simp only
  split
  · exact (setDigit s i).trans (sendFrame _ _)
  · exact raise ..

theorem sendCycle (s : State) : EngineFrame s s.sendCycle :=
  ((((sendSlot s _).trans (sendSlot _ _)).trans (sendSlot _ _)).trans (sendSlot _ _)).trans (endCycle _)

theorem renderValue (s : State) (v : BitVec 16) (en : Bool) (p : BitVec 2) : EngineFrame s (s.renderValue v en p) :=
  (capture ..).trans (sendCycle _)

end EngineFrame

/-- Operations of the serializer, the multiplexer and the composites stay inside the engine's frame. -/
theorem exec_engineFrame {i : Instr} {s t : State} (h : exec i s = .next t)
    (hi : i.tag = 2#4 ∨ i.tag = 3#4 ∨ i.tag = 5#4 ∨ i.tag = 6#4 ∨ i.tag = 8#4 ∨ i.tag = 9#4) : EngineFrame s t := by
  cases i <;> simp [Instr.tag] at hi <;> cases h
  case latchLo => exact EngineFrame.driveLines ..
  case sdataBit n => exact EngineFrame.sdataBit s n
  case sclkHi => exact EngineFrame.driveLines ..
  case sclkLo => exact EngineFrame.driveLines ..
  case latchHi => exact EngineFrame.driveLines ..
  case sactRsvd101 => exact EngineFrame.raise ..
  case sactRsvd11x => exact EngineFrame.raise ..
  case loadTime => exact EngineFrame.loadTime s _
  case loadExt => exact (EngineFrame.capture ..).unlessFault _
  case shift => exact (EngineFrame.serStep s).unlessFault _
  case settle => exact (EngineFrame.settleStep s).unlessFault _
  case dphRsvd => exact EngineFrame.raise ..
  case writeFrame => exact (EngineFrame.sendFrame ..).unlessFault _
  case render => exact (EngineFrame.renderValue ..).unlessFault _
  case clockRender => exact (EngineFrame.renderValue ..).unlessFault _
  case extRender => exact (EngineFrame.renderValue ..).unlessFault _

/-- No operation touches configuration, ports, stimulus or edge number, and none removes a record. -/
theorem exec_environment {i : Instr} {s t : State} (h : exec i s = .next t) :
    t.cfg = s.cfg ∧ t.inputs = s.inputs ∧ t.stim = s.stim ∧ t.edge = s.edge ∧ ∃ l, t.faults = s.faults ++ l := by
  by_cases hi : i.tag = 2#4 ∨ i.tag = 3#4 ∨ i.tag = 5#4 ∨ i.tag = 6#4 ∨ i.tag = 8#4 ∨ i.tag = 9#4
  · have f := exec_engineFrame h hi
    exact ⟨f.cfg, f.inputs, f.stim, f.edge, f.faults⟩
  · cases i <;> simp [Instr.tag] at hi
    case encode0to7 d dp =>
      cases h
      unfold State.encodeDigit
      split <;> exact ⟨rfl, rfl, rfl, rfl, by simp⟩
    case encode8to9 d dp =>
      cases h
      unfold State.encodeDigit
      split <;> exact ⟨rfl, rfl, rfl, rfl, by simp⟩
    case tick =>
      cases h
      rcases s.unlessFault_cases (s.setTime (nextSec s.sec) (nextMin s.sec s.min)) (timeFaults s) with ⟨-, e⟩ | ⟨-, e⟩ <;>
        rw [e] <;> exact ⟨rfl, rfl, rfl, rfl, by simp⟩
    case thold =>
      cases h
      rcases s.unlessFault_cases s (timeFaults s) with ⟨-, e⟩ | ⟨-, e⟩ <;>
        rw [e] <;> exact ⟨rfl, rfl, rfl, rfl, by simp⟩
    all_goals
      cases h
      exact ⟨rfl, rfl, rfl, rfl, by simp⟩

end Sys2Proof.Machine
end

