-- ==== Sys2Proof/Laws/Step.lean ====
section
/-! SUPPORT. Inversion of the step: once for the step, once for a clock edge, once for each selector. -/
namespace Sys2Proof.Machine

/-- A step that answers a next state came from an admissible build with nothing recorded. -/
theorem step_next {s t : State} (h : step s = .next t) : s.cfg.Valid ∧ s.faults = [] ∧ s.runNext = .next t := by
  unfold step State.stepChecked at h
  split at h
  case isTrue hv =>
    split at h
    · exact ⟨hv, by assumption, h⟩
    · cases h
  case isFalse => cases h

/-- From such a state the step runs the next item. -/
theorem step_eq_runNext {s : State} (hv : s.cfg.Valid) (hf : s.faults = []) : step s = s.runNext := by
  unfold step State.stepChecked
  rw [if_pos hv, hf]

/-- An item that is not a direct operation is a clock edge with some inputs on the ports. -/
theorem State.runNext_of_edge {s : State} (h : s.NextIsEdge) :
    ∃ x rest, s.runNext = clockEdge (s.sample x rest) ∧
      (s.stim = .edge x :: rest ∨ (s.stim = [] ∧ rest = [] ∧ x = s.inputs.idle)) := by
  unfold State.runNext
  match hs : s.stim with
  | [] => exact ⟨s.inputs.idle, [], rfl, .inr ⟨rfl, rfl, rfl⟩⟩
  | .edge x :: rest => exact ⟨x, rest, rfl, .inl rfl⟩
  | .op w :: rest => simp [State.NextIsEdge, hs] at h

/-- A listed clock edge is what the step runs. -/
theorem step_of_edge {s : State} {x : Inputs} {rest : List Stimulus} (hv : s.cfg.Valid) (hf : s.faults = [])
    (hs : s.stim = .edge x :: rest) : step s = clockEdge (s.sample x rest) := by
  rw [step_eq_runNext hv hf]
  unfold State.runNext
  rw [hs]

/-- A next state came from a clock edge or from one directly applied operation. -/
theorem State.runNext_cases {s t : State} (h : s.runNext = .next t) :
    (∃ x rest, clockEdge (s.sample x rest) = .next t) ∨ ∃ i rest, exec i { s with stim := rest } = .next t := by
  by_cases he : s.NextIsEdge
  · obtain ⟨x, rest, e, _⟩ := s.runNext_of_edge he
    exact .inl ⟨x, rest, e ▸ h⟩
  · unfold State.runNext at h
    split at h
    · simp_all [State.NextIsEdge]
    · simp_all [State.NextIsEdge]
    · unfold applyWord at h
      split at h
      · exact .inr ⟨_, _, h⟩
      · cases h

/-- The display half always answers a next state. -/
theorem State.displayUpdate_next (s : State) : ∃ d, s.displayUpdate = .next d := by
  unfold State.displayUpdate
  split
  · exact ⟨_, rfl⟩
  · exact exec_next ..

/-- A clock edge is a POR, or both units from the same state (R10). -/
theorem clockEdge_cases (u : State) :
    (u.inputs.rstN = false ∧ clockEdge u = .next u.blockReset.countEdge) ∨
    (u.inputs.rstN = true ∧ ∃ t d, exec u.timeOp u = .next t ∧ u.displayUpdate = .next d ∧
      clockEdge u = .next (u.joinUnits t d)) := by
  obtain ⟨t, ht⟩ := exec_next u.timeOp u
  obtain ⟨d, hd⟩ := u.displayUpdate_next
  cases hr : u.inputs.rstN
  · refine .inl ⟨rfl, ?_⟩
    have hp : u.timeOp = .por u.inputs.treset u.inputs.tick := by
      simp only [State.timeOp, Inputs.ctl, hr]
      cases u.inputs.treset <;> cases u.inputs.tick <;> rfl
    simp only [clockEdge, hp, exec, execPor, hr]
    rfl
  · exact .inr ⟨rfl, t, d, ht, hd, by simp [clockEdge, ht, hd, hr]⟩

/-- TIME's operation out of POR (R80, R193). -/
theorem State.timeOp_eq {s : State} (h : s.inputs.rstN = true) :
    s.timeOp = if s.inputs.treset then .treset s.inputs.tick else if s.inputs.tick then .tick else .thold := by
  simp only [State.timeOp, Inputs.ctl, h]
  cases s.inputs.treset <;> cases s.inputs.tick <;> rfl

/-- The display engine's operation (R77). -/
theorem State.displayOp_eq (s : State) :
    s.displayOp = if s.dph = dphLoad then (if s.inputs.srcSel then .loadExt else .loadTime)
      else if s.dph = dphShift then .shift s.inputs.srcSel
      else if s.dph = dphSettle then .settle s.inputs.srcSel else .dphRsvd s.inputs.srcSel := by
  have key : ∀ (p : BitVec 2) (b : Bool), decodeDsel (p ++ BitVec.ofBool b) =
      if p = dphLoad then (if b then .loadExt else .loadTime) else if p = dphShift then .shift b
      else if p = dphSettle then .settle b else .dphRsvd b := by decide
  exact key s.dph s.inputs.srcSel

/-- What the time operation of an edge out of POR can do: hold, clear or count within the range, or record that the range is
broken. -/
theorem exec_timeOp_cases {s t : State} (hr : s.inputs.rstN = true) (h : exec s.timeOp s = .next t) :
    (s.inputs.treset = true ∧ t = s.setTime 0#6 0#7) ∨
    (s.inputs.treset = false ∧ s.TimeInRange ∧
      t = if s.inputs.tick then s.setTime (nextSec s.sec) (nextMin s.sec s.min) else s) ∨
    (s.inputs.treset = false ∧ ¬s.TimeInRange ∧ t = s.raise [.timeInv s.min s.sec]) := by
  rw [s.timeOp_eq hr] at h
  cases hx : s.inputs.treset
  · by_cases ht : s.TimeInRange
    · refine .inr (.inl ⟨rfl, ht, ?_⟩)
      have hn := (timeFaults_eq_nil s).mpr ht
      cases hk : s.inputs.tick <;> simp [hx, hk, exec, execTick, execThold, hn] at h ⊢ <;> exact h.symm
    · refine .inr (.inr ⟨rfl, ht, ?_⟩)
      have hn := timeFaults_of_not ht
      cases hk : s.inputs.tick <;> simp [hx, hk, exec, execTick, execThold, hn, State.unlessFault] at h ⊢ <;> exact h.symm
  · refine .inl ⟨rfl, ?_⟩
    simp [hx, exec, execTreset] at h
    exact h.symm

/-- LOAD_TIME is the operation selected by 000 (R77). -/
theorem State.dsel_eq_loadTime (s : State) : s.dsel = 0b000#3 ↔ s.dph = dphLoad ∧ s.inputs.srcSel = false := by
  have key : ∀ (p : BitVec 2) (b : Bool), p ++ BitVec.ofBool b = 0b000#3 ↔ p = dphLoad ∧ b = false := by decide
  exact key s.dph s.inputs.srcSel

/-- With the time in range LOAD_TIME's check of it is empty. -/
theorem State.loadTime_of_inRange {s : State} (h : s.TimeInRange) : s.loadTime (timeFaults s) = s.loadTime [] := by
  rw [(timeFaults_eq_nil s).mpr h]

/-- The display half of an edge is the selected operation, but for LOAD_TIME at an edge with TRESET, which does not check the time
(R199, log 5). -/
theorem State.displayUpdate_cases {s d : State} (h : s.displayUpdate = .next d) :
    (s.inputs.treset = true ∧ s.dph = dphLoad ∧ s.inputs.srcSel = false ∧ d = s.loadTime []) ∨
    (¬(s.inputs.treset = true ∧ s.dph = dphLoad ∧ s.inputs.srcSel = false) ∧ exec s.displayOp s = .next d) := by
  unfold State.displayUpdate at h
  split at h
  case isTrue hc =>
    cases h
    have hd := s.dsel_eq_loadTime.mp hc.2
    exact .inl ⟨hc.1, hd.1, hd.2, rfl⟩
  case isFalse hc => exact .inr ⟨fun k => hc ⟨k.1, s.dsel_eq_loadTime.mpr k.2⟩, h⟩

/-- With the time in range the display half of an edge is the selected operation. -/
theorem State.displayUpdate_of_inRange {s : State} (h : s.TimeInRange) : s.displayUpdate = exec s.displayOp s := by
  unfold State.displayUpdate
  split
  case isTrue hc =>
    have hd : s.displayOp = .loadTime := by rw [State.displayOp, hc.2]; rfl
    rw [hd, ← State.loadTime_of_inRange h]
    rfl
  case isFalse => rfl

/-- A legal SHIFT edge has a word to send. -/
theorem sendFaults_of_legal {s : State} (h : s.EngineLegal) : sendFaults s = [] := by
  obtain ⟨w, hw⟩ := h.curWord
  simp [sendFaults, hw]

/-- What the display operation of an edge can do from legal codes: capture, shift, settle, or record that LOAD_TIME met a time out
of range. -/
theorem exec_displayOp_cases {s d : State} (hl : s.EngineLegal) (h : exec s.displayOp s = .next d) :
    (s.dph = dphLoad ∧ s.inputs.srcSel = false ∧ s.TimeInRange ∧ d = s.capture (digits s.timeValue) true timeDpPos) ∨
    (s.dph = dphLoad ∧ s.inputs.srcSel = false ∧ ¬s.TimeInRange ∧ d = s.raise [.timeInv s.min s.sec]) ∨
    (s.dph = dphLoad ∧ s.inputs.srcSel = true ∧
      d = s.capture (digits s.inputs.extValue) s.inputs.extDpEn s.inputs.extDpPos) ∨
    (s.dph = dphShift ∧ d = s.serStep) ∨ (s.dph = dphSettle ∧ d = s.settleStep) := by
  have hn := (engineFaults_eq_nil s).mpr hl
  rw [s.displayOp_eq] at h
  by_cases h0 : s.dph = dphLoad
  · cases hs : s.inputs.srcSel
    · by_cases ht : s.TimeInRange
      · have htn := (timeFaults_eq_nil s).mpr ht
        simp [h0, hs, exec, execLoadTime, State.loadTime, hn, htn] at h
        exact .inl ⟨h0, rfl, ht, h.symm⟩
      · have htn := timeFaults_of_not ht
        simp [h0, hs, exec, execLoadTime, State.loadTime, hn, htn, State.unlessFault] at h
        exact .inr (.inl ⟨h0, rfl, ht, h.symm⟩)
    · simp [h0, hs, exec, execLoadExt, hn] at h
      exact .inr (.inr (.inl ⟨h0, rfl, h.symm⟩))
  · by_cases h1 : s.dph = dphShift
    · rw [if_neg h0, if_pos h1] at h
      simp [exec, execShift, hn, sendFaults_of_legal hl] at h
      exact .inr (.inr (.inr (.inl ⟨h1, h.symm⟩)))
    · by_cases h2 : s.dph = dphSettle
      · rw [if_neg h0, if_neg h1, if_pos h2] at h
        simp [exec, execSettle, hn] at h
        exact .inr (.inr (.inr (.inr ⟨h2, h.symm⟩)))
      · have : ∀ p : BitVec 2, p ≠ dphLoad → p ≠ dphShift → p ≠ dphSettle → p = dphReserved := by decide
        exact absurd (this s.dph h0 h1 h2) hl.1

/-- What every operation keeps, and the joining of two units keeps, a clock edge keeps. -/
theorem clockEdge_keeps {u t : State} (I : State → Prop) (hexec : ∀ i s t, I s → exec i s = .next t → I t)
    (hload : ∀ s, I s → I (s.loadTime []))
    (hjoin : ∀ a b : State, I a → I b → I ((b.setTime a.sec a.min).countEdge))
    (hraise : ∀ (s : State) cs, I s → I (s.raise cs).countEdge) (hcount : ∀ s : State, I s → I s.countEdge) (h : I u)
    (e : clockEdge u = .next t) : I t := by
  rcases clockEdge_cases u with ⟨-, e2⟩ | ⟨-, a, b, ha, hb, e2⟩
  · rw [e2] at e
    cases e
    exact hcount _ (hexec (.por false false) u _ h rfl)
  · rw [e2] at e
    cases e
    rcases u.joinUnits_cases a b with e3 | ⟨cs, -, e3⟩ <;> rw [e3]
    · refine hjoin a b (hexec _ _ _ h ha) ?_
      rcases State.displayUpdate_cases hb with ⟨-, -, -, rfl⟩ | ⟨-, hb⟩
      · exact hload u h
      · exact hexec _ _ _ h hb
    · exact hraise _ _ h

end Sys2Proof.Machine
end

