-- ==== Sys2Proof/Laws/Legality.lean ====
section
/-! SUPPORT. Every shared operation, and so every operation of the block, keeps the engine's codes legal (R42) and the time in range
(R198). -/
namespace Sys2Proof.Machine

/-- Legality looks at seven fields. -/
theorem State.EngineLegal.congr {s t : State} (h : s.EngineLegal) (e : t.cfg = s.cfg ∧ t.dph = s.dph ∧ t.sph = s.sph ∧
    t.sbit = s.sbit ∧ t.pcnt = s.pcnt ∧ t.scnt = s.scnt ∧ t.rdig = s.rdig) : t.EngineLegal := by
  obtain ⟨a, b, c, d, f, g, i⟩ := e
  simp only [State.EngineLegal, a, b, c, d, f, g, i] at *
  exact h

theorem State.EngineLegal.driveLines {s : State} (h : s.EngineLegal) (a b c : Bool) : (s.driveLines a b c).EngineLegal :=
  h.congr (by simp)

theorem State.EngineLegal.raise {s : State} (h : s.EngineLegal) (cs : List FaultCause) : (s.raise cs).EngineLegal :=
  h.congr (by simp)

theorem State.EngineLegal.setDigit {s : State} (h : s.EngineLegal) (i : BitVec 2) : (s.setDigit i).EngineLegal :=
  h.congr (by simp)

theorem State.EngineLegal.setAction {s : State} (h : s.EngineLegal) {p : BitVec 3} {n : BitVec 4} {k : Nat}
    (hp : p ≤ sphLatchHi) (hn : (p = sphLatchLo ∨ p = sphLatchHi) → n = 0#4) (hk : k < s.cfg.phaseCycles) :
    (s.setAction p n k).EngineLegal :=
  ⟨h.1, hp, hk, h.2.2.2.1, h.2.2.2.2.1, hn⟩

theorem State.EngineLegal.endFrame {s : State} (h : s.EngineLegal) : s.endFrame.EngineLegal :=
  ⟨(by decide : dphSettle ≠ dphReserved), h.2.1, Nat.zero_lt_of_lt h.2.2.1, Nat.zero_lt_of_lt h.2.2.2.1, h.2.2.2.2⟩

theorem State.EngineLegal.endCycle {s : State} (h : s.EngineLegal) : s.endCycle.EngineLegal :=
  ⟨(by decide : dphLoad ≠ dphReserved), h.2.1, h.2.2.1, Nat.zero_lt_of_lt h.2.2.2.1, h.2.2.2.2⟩

theorem State.EngineLegal.nextSlot {s : State} (h : s.EngineLegal) : s.nextSlot.EngineLegal :=
  ⟨(by decide : dphShift ≠ dphReserved), (by decide : sphLatchLo ≤ sphLatchHi), Nat.zero_lt_of_lt h.2.2.1,
    Nat.zero_lt_of_lt h.2.2.2.1, h.2.2.2.2.1, fun _ => rfl⟩

theorem State.EngineLegal.capture {s : State} (h : s.EngineLegal) (v : BitVec 16) (en : Bool) (p : BitVec 2) :
    (s.capture (digits v) en p).EngineLegal :=
  ⟨(by decide : dphShift ≠ dphReserved), (by decide : sphLatchLo ≤ sphLatchHi), Nat.zero_lt_of_lt h.2.2.1, h.2.2.2.1,
    fun k => by rw [State.capture_rdig, digits_get]; exact digit_lt_ten v k, fun _ => rfl⟩

theorem resetDigits_lt_ten : ∀ k : Fin 4, (#v[0#4, 0#4, 0#4, 0#4] : Vector (BitVec 4) 4)[k].toNat < 10
  | 0 | 1 | 2 | 3 => by decide

theorem State.EngineLegal.blockReset {s : State} (h : s.EngineLegal) : s.blockReset.EngineLegal :=
  ⟨(by decide : dphLoad ≠ dphReserved), (by decide : sphLatchLo ≤ sphLatchHi), Nat.zero_lt_of_lt h.2.2.1,
    Nat.zero_lt_of_lt h.2.2.2.1,
    resetDigits_lt_ten, fun _ => rfl⟩

theorem State.EngineLegal.unlessFault {s t : State} (h : s.EngineLegal) (k : t.EngineLegal) (cs : List FaultCause) :
    (s.unlessFault cs t).EngineLegal := by
  rcases s.unlessFault_cases t cs with ⟨-, e⟩ | ⟨-, e⟩ <;> rw [e]
  · exact k
  · exact h.raise cs

theorem State.EngineLegal.loadTime {s : State} (h : s.EngineLegal) (cs : List FaultCause) : (s.loadTime cs).EngineLegal :=
  h.unlessFault (h.capture ..) _

theorem State.EngineLegal.sdataBit {s : State} (h : s.EngineLegal) (n : BitVec 4) : (s.sdataBit n).EngineLegal := by
  unfold State.sdataBit
  split
  · exact h.driveLines ..
  · exact h.raise _

/-- NEXT leads to legal codes only (R120). -/
theorem nextAction_legal : ∀ p n q m, nextAction p n = some (q, m) →
    q ≤ sphLatchHi ∧ ((q = sphLatchLo ∨ q = sphLatchHi) → m = 0#4) := by decide

/-- Only LATCH_HI has no next action among the legal codes (R120). -/
theorem nextAction_none : ∀ p n, p ≤ sphLatchHi → nextAction p n = none → p = sphLatchHi := by decide

theorem State.EngineLegal.lineAction {s : State} (h : s.EngineLegal) : s.lineAction.EngineLegal := by
  unfold State.lineAction
  by_cases h0 : s.sph = sphLatchLo
  · rw [if_pos h0]; exact h.driveLines ..
  by_cases h1 : s.sph = sphData
  · rw [if_neg h0, if_pos h1]; exact h.sdataBit _
  by_cases h2 : s.sph = sphClkHi
  · rw [if_neg h0, if_neg h1, if_pos h2]; exact h.driveLines ..
  by_cases h3 : s.sph = sphClkLo
  · rw [if_neg h0, if_neg h1, if_neg h2, if_pos h3]; exact h.driveLines ..
  by_cases h4 : s.sph = sphLatchHi
  · rw [if_neg h0, if_neg h1, if_neg h2, if_neg h3, if_pos h4]; exact h.driveLines ..
  · rw [if_neg h0, if_neg h1, if_neg h2, if_neg h3, if_neg h4]; exact h.raise _

theorem State.EngineLegal.advance {s : State} (h : s.EngineLegal) : s.advance.EngineLegal := by
  have hp := h.2.2.1
  unfold State.advance
  by_cases he : s.pcnt + 1 = s.cfg.phaseCycles
  · rw [if_pos he]
    match hn : nextAction s.sph s.sbit with
    | some (q, m) =>
      have hq := nextAction_legal _ _ _ _ hn
      exact h.setAction hq.1 hq.2 (Nat.zero_lt_of_lt hp)
    | none => exact h.endFrame
  · rw [if_neg he]
    exact h.setAction h.2.1 h.2.2.2.2.2 (by omega)

theorem State.EngineLegal.serStep {s : State} (h : s.EngineLegal) : s.serStep.EngineLegal := by
  unfold State.serStep
  split
  · exact h.lineAction.advance
  · exact h.advance

theorem State.EngineLegal.settleStep {s : State} (h : s.EngineLegal) : s.settleStep.EngineLegal := by
  have hs := h.2.2.2.1
  unfold State.settleStep
  by_cases he : s.scnt + 1 = s.cfg.settleCycles
  · rw [if_pos he]
    split
    · exact h.endCycle
    · exact h.nextSlot
  · rw [if_neg he]
    exact ⟨h.1, h.2.1, h.2.2.1, (by omega : s.scnt + 1 < s.cfg.settleCycles), h.2.2.2.2⟩

theorem State.EngineLegal.pulses {s : State} (h : s.EngineLegal) (w : Frame) (ns : List Nat) :
    (ns.foldl (fun t n => t.pulseBit (w.getLsbD (15 - n))) s).EngineLegal := by
  induction ns generalizing s with
  | nil => exact h
  | cons n ns ih => exact ih (((h.driveLines ..).driveLines ..).driveLines ..)

theorem State.EngineLegal.sendFrame {s : State} (h : s.EngineLegal) (w : Frame) : (s.sendFrame w).EngineLegal := by
  have hl : (s.frameLines w).EngineLegal := ((h.driveLines ..).pulses w _).driveLines ..
  exact (hl.setAction (Nat.le_refl _) (fun _ => rfl) (Nat.zero_lt_of_lt hl.2.2.1)).endFrame

theorem State.EngineLegal.sendSlot {s : State} (h : s.EngineLegal) (i : BitVec 2) : (s.sendSlot i).EngineLegal := by
  unfold State.sendSlot
  simp only
  split
  · exact (h.setDigit i).sendFrame _
  · exact h.raise _

theorem State.EngineLegal.renderValue {s : State} (h : s.EngineLegal) (v : BitVec 16) (en : Bool) (p : BitVec 2) :
    (s.renderValue v en p).EngineLegal :=
  (((((h.capture v en p).sendSlot _).sendSlot _).sendSlot _).sendSlot _).endCycle

/-- In a legal state no line action raises (R102, R127: both illegal inputs are unreachable). -/
theorem lineAction_faults {s : State} (h : s.EngineLegal) : s.lineAction.faults = s.faults := by
  obtain ⟨w, hw⟩ := h.curWord
  have legal : ∀ p : BitVec 3, p ≤ sphLatchHi →
      p = sphLatchLo ∨ p = sphData ∨ p = sphClkHi ∨ p = sphClkLo ∨ p = sphLatchHi := by decide
  unfold State.lineAction State.sdataBit
  rw [hw]
  rcases legal s.sph h.2.1 with e | e | e | e | e <;> rw [e] <;> rfl

theorem serStep_faults {s : State} (h : s.EngineLegal) : s.serStep.faults = s.faults := by
  have hadv : ∀ v : State, v.advance.faults = v.faults := by
    intro v
    unfold State.advance
    repeat' split
    all_goals rfl
  unfold State.serStep
  rw [hadv]
  split
  · exact lineAction_faults h
  · rfl

theorem settleStep_faults (s : State) : s.settleStep.faults = s.faults := by
  unfold State.settleStep
  repeat' split
  all_goals rfl

/-- Every operation keeps the engine's codes legal. -/
theorem exec_keeps_engineLegal {i : Instr} {s t : State} (h : s.EngineLegal) (e : exec i s = .next t) :
    t.EngineLegal := by
  cases i <;> cases e
  case encode0to7 d dp => unfold State.encodeDigit; split <;> exact h.congr (by simp)
  case encode8to9 d dp => unfold State.encodeDigit; split <;> exact h.congr (by simp)
  case encIllegal10to11 => exact h.raise _
  case encIllegal12to15 => exact h.raise _
  case latchLo => exact h.driveLines ..
  case sdataBit n => exact h.sdataBit n
  case sclkHi => exact h.driveLines ..
  case sclkLo => exact h.driveLines ..
  case latchHi => exact h.driveLines ..
  case sactRsvd101 => exact h.raise _
  case sactRsvd11x => exact h.raise _
  case loadTime => exact h.loadTime _
  case loadExt => exact h.unlessFault (h.capture ..) _
  case shift => exact h.unlessFault h.serStep _
  case settle => exact h.unlessFault h.settleStep _
  case dphRsvd => exact h.raise _
  case por => exact h.blockReset
  case treset => exact h.congr (by simp)
  case tick => exact h.unlessFault (h.congr (by simp)) _
  case thold => exact h.unlessFault h _
  case writeFrame => exact h.unlessFault (h.sendFrame _) _
  case render => exact h.unlessFault (h.renderValue ..) _
  case snapshot => exact h.congr (by simp)
  case clockRender => exact h.unlessFault (h.renderValue ..) _
  case extRender => exact h.unlessFault (h.renderValue ..) _

/-- A tick within the range: the count modulo 60 and 100, still within the range (R190). -/
theorem nextTime_spec {s : State} (h : s.TimeInRange) :
    (nextSec s.sec).toNat = (s.sec.toNat + 1) % 60 ∧
    (nextMin s.sec s.min).toNat = (s.min.toNat + (s.sec.toNat + 1) / 60) % 100 := by
  obtain ⟨h1, h2⟩ := h
  unfold nextSec nextMin secMod minMod
  repeat' split
  all_goals simp
  all_goals omega

/-- An edge out of POR from legal codes and a time in range: neither unit raises, and their writes land together. -/
theorem clockEdge_of_legal {u : State} (ht : u.TimeInRange) (hl : u.EngineLegal) (hr : u.inputs.rstN = true) :
    ∃ a b, exec u.timeOp u = .next a ∧ exec u.displayOp u = .next b ∧ a.faults = u.faults ∧ b.faults = u.faults ∧
      clockEdge u = .next ((b.setTime a.sec a.min).countEdge) := by
  rcases clockEdge_cases u with ⟨h, -⟩ | ⟨-, a, b, ha, hb, e⟩
  · simp [h] at hr
  · rw [State.displayUpdate_of_inRange ht] at hb
    have fa : a.faults = u.faults := by
      rcases exec_timeOp_cases hr ha with ⟨-, rfl⟩ | ⟨-, -, rfl⟩ | ⟨-, hn, -⟩
      · rfl
      · split <;> rfl
      · exact absurd ht hn
    have fb : b.faults = u.faults := by
      rcases exec_displayOp_cases hl hb with ⟨-, -, -, rfl⟩ | ⟨-, -, hn, -⟩ | ⟨-, -, rfl⟩ | ⟨-, rfl⟩ | ⟨-, rfl⟩
      · rfl
      · exact absurd ht hn
      · rfl
      · exact serStep_faults hl
      · exact settleStep_faults u
    exact ⟨a, b, ha, hb, fa, fb, by rw [e, State.joinUnits_quiet fa fb]⟩

end Sys2Proof.Machine
end

