-- ==== Sys2Proof/Laws/PerInstr.lean ====
section
/-! SUPPORT. A statement made once per operation, about the operation as written: its encoded word carries its unit's tag and its own
payload, and the tag is one that the decoder knows. -/
namespace Sys2Proof.Laws.EncodedTag

/-- The word of `i` splits into the tag and the payload of `i`, and the tag is neither the bare-code tag nor a reserved one. -/
def Statement (i : Instr) : Prop :=
  wordTag (encode i) = i.tag ∧ wordPayload (encode i) = i.payload ∧ i.tag ≠ 0#4 ∧ i.tag.toNat ≤ 9

theorem encode0to7 (d : BitVec 4) (dp : Bool) : Statement (.encode0to7 d dp) := ⟨by simp, by simp, by simp [Instr.tag], by simp [Instr.tag]⟩
theorem encode8to9 (d : BitVec 4) (dp : Bool) : Statement (.encode8to9 d dp) := ⟨by simp, by simp, by simp [Instr.tag], by simp [Instr.tag]⟩
theorem encIllegal10to11 (d : BitVec 4) (dp : Bool) : Statement (.encIllegal10to11 d dp) :=
  ⟨by simp, by simp, by simp [Instr.tag], by simp [Instr.tag]⟩
theorem encIllegal12to15 (d : BitVec 4) (dp : Bool) : Statement (.encIllegal12to15 d dp) :=
  ⟨by simp, by simp, by simp [Instr.tag], by simp [Instr.tag]⟩
theorem latchLo (n : BitVec 4) : Statement (.latchLo n) := ⟨by simp, by simp, by simp [Instr.tag], by simp [Instr.tag]⟩
theorem sdataBit (n : BitVec 4) : Statement (.sdataBit n) := ⟨by simp, by simp, by simp [Instr.tag], by simp [Instr.tag]⟩
theorem sclkHi (n : BitVec 4) : Statement (.sclkHi n) := ⟨by simp, by simp, by simp [Instr.tag], by simp [Instr.tag]⟩
theorem sclkLo (n : BitVec 4) : Statement (.sclkLo n) := ⟨by simp, by simp, by simp [Instr.tag], by simp [Instr.tag]⟩
theorem latchHi (n : BitVec 4) : Statement (.latchHi n) := ⟨by simp, by simp, by simp [Instr.tag], by simp [Instr.tag]⟩
theorem sactRsvd101 (n : BitVec 4) : Statement (.sactRsvd101 n) := ⟨by simp, by simp, by simp [Instr.tag], by simp [Instr.tag]⟩
theorem sactRsvd11x (p : BitVec 3) (n : BitVec 4) : Statement (.sactRsvd11x p n) := ⟨by simp, by simp, by simp [Instr.tag], by simp [Instr.tag]⟩
theorem loadTime : Statement .loadTime := ⟨by simp, by simp, by simp [Instr.tag], by simp [Instr.tag]⟩
theorem loadExt : Statement .loadExt := ⟨by simp, by simp, by simp [Instr.tag], by simp [Instr.tag]⟩
theorem shift (b : Bool) : Statement (.shift b) := ⟨by simp, by simp, by simp [Instr.tag], by simp [Instr.tag]⟩
theorem settle (b : Bool) : Statement (.settle b) := ⟨by simp, by simp, by simp [Instr.tag], by simp [Instr.tag]⟩
theorem dphRsvd (b : Bool) : Statement (.dphRsvd b) := ⟨by simp, by simp, by simp [Instr.tag], by simp [Instr.tag]⟩
theorem por (a b : Bool) : Statement (.por a b) := ⟨by simp, by simp, by simp [Instr.tag], by simp [Instr.tag]⟩
theorem treset (b : Bool) : Statement (.treset b) := ⟨by simp, by simp, by simp [Instr.tag], by simp [Instr.tag]⟩
theorem tick : Statement .tick := ⟨by simp, by simp, by simp [Instr.tag], by simp [Instr.tag]⟩
theorem thold : Statement .thold := ⟨by simp, by simp, by simp [Instr.tag], by simp [Instr.tag]⟩
theorem writeFrame (seg sel : Byte) : Statement (.writeFrame seg sel) := ⟨by simp, by simp, by simp [Instr.tag], by simp [Instr.tag]⟩
theorem render (v : BitVec 16) (en : Bool) (pos : BitVec 2) : Statement (.render v en pos) :=
  ⟨by simp, by simp, by simp [Instr.tag], by simp [Instr.tag]⟩
theorem snapshot : Statement .snapshot := ⟨by simp, by simp, by simp [Instr.tag], by simp [Instr.tag]⟩
theorem clockRender : Statement .clockRender := ⟨by simp, by simp, by simp [Instr.tag], by simp [Instr.tag]⟩
theorem extRender : Statement .extRender := ⟨by simp, by simp, by simp [Instr.tag], by simp [Instr.tag]⟩

end Sys2Proof.Laws.EncodedTag
end

