-- ==== Sys2Proof/Laws/Serial.lean ====
section
/-! SUPPORT. The serializer's shared operations in closed form: one line action from legal codes, one bit's clock pulse, the bits of
a whole frame. -/
namespace Sys2Proof.Machine

/-- From legal codes a line action drives exactly the line its code names (R78, R122 to R126). -/
theorem State.EngineLegal.lineAction_eq {s : State} (h : s.EngineLegal) :
    ∃ w, s.curWord = .ok w ∧ s.lineAction = s.driveLines
      (if s.sph = sphData then w.getLsbD (15 - s.sbit.toNat) else s.sdata)
      (if s.sph = sphClkHi then true else if s.sph = sphClkLo then false else s.sclk)
      (if s.sph = sphLatchHi then true else if s.sph = sphLatchLo then false else s.slatch) := by
  obtain ⟨w, hw⟩ := h.curWord
  refine ⟨w, hw, ?_⟩
  have legal : ∀ p : BitVec 3, p ≤ sphLatchHi →
      p = sphLatchLo ∨ p = sphData ∨ p = sphClkHi ∨ p = sphClkLo ∨ p = sphLatchHi := by decide
  unfold State.lineAction State.sdataBit
  rw [hw]
  rcases legal s.sph h.2.1 with e | e | e | e | e <;> rw [e] <;> rfl

/-- With the clock low, a pulse leaves it low and moves one bit into the chain (R134). -/
theorem State.pulseBit_eq (s : State) (b : Bool) (h : s.sclk = false) :
    s.pulseBit b = { s with
      sdata := b, recv := { s.recv with sr := s.recv.sr.extractLsb' 0 15 ++ BitVec.ofBool b } } := by
  cases hs : s.slatch <;>
    simp [State.pulseBit, State.putBit, State.sclkHi, State.sclkLo, State.driveLines, Receiver.observe, h, hs]

/-- A chain after a list of bits, first bit first. -/
def bitsInto (bs : List Bool) (r : BitVec 16) : BitVec 16 := bs.foldl (fun r b => r.extractLsb' 0 15 ++ BitVec.ofBool b) r

/-- The pulses of a list of bit numbers of a word. -/
theorem pulses_eq (w : Frame) (ns : List Nat) (s : State) (h : s.sclk = false) :
    ns.foldl (fun t n => t.pulseBit (w.getLsbD (15 - n))) s = { s with
      sdata := (ns.map fun n => w.getLsbD (15 - n)).foldl (fun _ b => b) s.sdata
      recv := { s.recv with sr := bitsInto (ns.map fun n => w.getLsbD (15 - n)) s.recv.sr } } := by
  induction ns generalizing s with
  | nil => rfl
  | cons n ns ih =>
    simp only [List.foldl_cons, List.map_cons]
    rw [s.pulseBit_eq _ h, ih _ (by simpa using h)]
    rfl

/-- Bit i of the chain is the i-th bit from the list's end, or an old bit pushed up. -/
theorem bitsInto_getLsbD (bs : List Bool) (r : BitVec 16) (i : Nat) (hi : i < 16) :
    (bitsInto bs r).getLsbD i = if h : i < bs.length then bs[bs.length - 1 - i] else r.getLsbD (i - bs.length) := by
  induction bs generalizing r with
  | nil => simp [bitsInto]
  | cons b bs ih =>
    simp only [bitsInto, List.foldl_cons] at ih ⊢
    rw [ih]
    by_cases h : i < bs.length
    · simp [h, show i < bs.length + 1 by omega, List.getElem_cons, show bs.length - i ≠ 0 by omega]
      congr 1
      omega
    · simp only [h, dite_false]
      rw [shiftIn_eq, BitVec.getLsbD_or, BitVec.getLsbD_shiftLeft, BitVec.getLsbD_setWidth]
      by_cases h2 : i = bs.length
      · subst h2
        simp
      · simp [show ¬i < bs.length + 1 by omega, show i - bs.length ≠ 0 by omega, show i - bs.length < 16 by omega]
        congr 1

/-- Sixteen bits, most significant first, leave nothing of the old chain (R134). -/
theorem bitsInto_word (w r : BitVec 16) : bitsInto ((List.range 16).map fun n => w.getLsbD (15 - n)) r = w := by
  apply BitVec.eq_of_getLsbD_eq
  intro i hi
  rw [bitsInto_getLsbD _ _ _ hi]
  simp [hi, show 15 - (15 - i) = i by omega]

end Sys2Proof.Machine
end

