-- ==== Sys2Proof/Tests/Slice0.lean ====
section
/-! SUPPORT. Tests of single operations and single steps, with expected values from the spec's rules and vectors (95_test_vectors.md;
a test's comment names its source), and for every statement with hypotheses a concrete case that meets them all. -/
namespace Sys2Proof.Tests

open Sys2Proof Sys2Proof.Machine

/-! ### Helpers -/

/-- The next state, if the outcome is one. -/
def nextOf : Host.Outcome State Fault Refusal → Option State
  | .next t => some t
  | _ => none

theorem next_of_nextOf {o : Host.Outcome State Fault Refusal} {t : State} (h : nextOf o = some t) : o = .next t := by
  cases o <;> simp_all [nextOf]

/-- The state after one operation. -/
def after (i : Instr) (s : State) : Option State := nextOf (exec i s)

/-- Launch, with PHASE_CYCLES = 2 and SETTLE_CYCLES = 3. -/
def slow : State := { State.reset with cfg := { Config.launch with phaseCycles := 2, settleCycles := 3 } }

/-- Launch, with this time. -/
def atTime (sec : BitVec 6) (min : BitVec 7) : State := { State.reset with sec := sec, min := min }

/-- Launch, with these inputs at the next edge. -/
def atEdge (s : State) (x : Inputs) : State := { s with stim := [.edge x] }

/-- The first SHIFT edge of digit 0 of a captured value. -/
def loaded (v : BitVec 16) (en : Bool) (pos : BitVec 2) : State := slow.capture (digits v) en pos

/-- The frame words of the four positions of a captured value. -/
def words (s : State) : List (Option Frame) :=
  [0#2, 1#2, 2#2, 3#2].map fun i => ({ s with didx := i } : State).curWord.toOption

/-! ### Well-formedness: one ill-formed term for each check -/

theorem test_wf_encode0to7_refuses_8 : (Instr.encode0to7 8#4 false).wf = false := by decide
theorem test_wf_encode8to9_refuses_7_and_10 :
    (Instr.encode8to9 7#4 false).wf = false ∧ (Instr.encode8to9 10#4 false).wf = false := by decide
theorem test_wf_encIllegal10to11_refuses_9_and_12 :
    (Instr.encIllegal10to11 9#4 true).wf = false ∧ (Instr.encIllegal10to11 12#4 true).wf = false := by decide
theorem test_wf_encIllegal12to15_refuses_11 : (Instr.encIllegal12to15 11#4 true).wf = false := by decide
theorem test_wf_sactRsvd11x_refuses_101 : (Instr.sactRsvd11x 0b101#3 0#4).wf = false := by decide
theorem test_wf_accepts : (Instr.encode0to7 7#4 true).wf = true ∧ (Instr.encode8to9 9#4 true).wf = true ∧
    (Instr.encIllegal10to11 11#4 true).wf = true ∧ (Instr.encIllegal12to15 15#4 true).wf = true ∧
    (Instr.sactRsvd11x 0b111#3 0#4).wf = true := by decide

/-! ### Decoding: codes written out from the tables R77 to R80, tags from log 1 -/

theorem test_decode_dig :
    decode 0b0001_0000000000000000000_0_0000_0111#32 = .ok (.encode0to7 7#4 false) ∧
    decode 0b0001_0000000000000000000_1_0000_1001#32 = .ok (.encode8to9 9#4 true) ∧
    decode 0b0001_0000000000000000000_0_0000_1010#32 = .ok (.encIllegal10to11 10#4 false) ∧
    decode 0b0001_0000000000000000000_1_0000_1111#32 = .ok (.encIllegal12to15 15#4 true) := ⟨rfl, rfl, rfl, rfl⟩

theorem test_decode_sact :
    decode 0b0010_000000000000000000000_000_0000#32 = .ok (.latchLo 0#4) ∧
    decode 0b0010_000000000000000000000_001_0101#32 = .ok (.sdataBit 5#4) ∧
    decode 0b0010_000000000000000000000_010_1111#32 = .ok (.sclkHi 15#4) ∧
    decode 0b0010_000000000000000000000_011_0001#32 = .ok (.sclkLo 1#4) ∧
    decode 0b0010_000000000000000000000_100_0000#32 = .ok (.latchHi 0#4) ∧
    decode 0b0010_000000000000000000000_101_0010#32 = .ok (.sactRsvd101 2#4) ∧
    decode 0b0010_000000000000000000000_110_0000#32 = .ok (.sactRsvd11x 0b110#3 0#4) := ⟨rfl, rfl, rfl, rfl, rfl, rfl, rfl⟩

theorem test_decode_dsel :
    decode 0b0011_0000000000000000000000000_00_0#32 = .ok .loadTime ∧
    decode 0b0011_0000000000000000000000000_00_1#32 = .ok .loadExt ∧
    decode 0b0011_0000000000000000000000000_01_1#32 = .ok (.shift true) ∧
    decode 0b0011_0000000000000000000000000_10_0#32 = .ok (.settle false) ∧
    decode 0b0011_0000000000000000000000000_11_1#32 = .ok (.dphRsvd true) := ⟨rfl, rfl, rfl, rfl, rfl⟩

theorem test_decode_ctl :
    decode 0b0100_0000000000000000000000000_1_0_1#32 = .ok (.por false true) ∧
    decode 0b0100_0000000000000000000000000_0_1_1#32 = .ok (.treset true) ∧
    decode 0b0100_0000000000000000000000000_0_0_1#32 = .ok .tick ∧
    decode 0b0100_0000000000000000000000000_0_0_0#32 = .ok .thold := ⟨rfl, rfl, rfl, rfl⟩

theorem test_decode_composites :
    decode 0b0101_000000000000_11000000_00000001#32 = .ok (.writeFrame 0xC0#8 0x01#8) ∧
    decode 0b0110_000000000_11_1_0011000000111001#32 = .ok (.render 12345#16 true 3#2) ∧
    decode 0x70000000#32 = .ok .snapshot ∧ decode 0x80000000#32 = .ok .clockRender ∧
    decode 0x90000000#32 = .ok .extRender := ⟨rfl, rfl, rfl, rfl, rfl⟩

theorem test_decode_refuses_by_name :
    decode 0xA0000000#32 = .error (.reservedTag 0b1010#4) ∧ decode 0x30000008#32 = .error (.reservedBits 3#4) ∧
    decode 0x00000080#32 = .error (.codeTooWide 0x80#8) := ⟨rfl, rfl, rfl⟩

/-- Bare codes of table rows that their narrowest selector owns (log 1). -/
theorem test_table_words :
    decodeTableWord 8 0b000 = some .loadTime ∧ decodeTableWord 8 0b001 = some .loadExt ∧
    decodeTableWord 8 0b1000 = some (.encode8to9 8#4 false) ∧ decodeTableWord 8 0b1100 = some (.encIllegal12to15 12#4 false) ∧
    decodeTableWord 8 0b0010000 = some (.sdataBit 0#4) ∧ decodeTableWord 8 0b1100000 = some (.sactRsvd11x 0b110#3 0#4) :=
  ⟨rfl, rfl, rfl, rfl, rfl, rfl⟩

/-- A placed word is the operation the very next step runs. -/
theorem test_fetch_word_runs : step (State.reset.withFetchWord 8 0b1000000) = exec (.latchHi 0#4) State.reset := rfl

/-! ### Encoder: vectors E2 to E8, R104 -/

theorem test_encode0to7 : (after (.encode0to7 7#4 true) State.reset).map (·.result) = some (some (.seg 0x78#8)) := by decide
theorem test_encode8to9 : (after (.encode8to9 8#4 false) State.reset).map (·.result) = some (some (.seg 0x80#8)) ∧
    (after (.encode8to9 9#4 true) State.reset).map (·.result) = some (some (.seg 0x10#8)) := by decide
theorem test_encIllegal10to11 : (after (.encIllegal10to11 11#4 true) State.reset).map (fun t => (t.faults, t.result)) =
    some ([⟨.encDigit 11#4, 0⟩], none) := by decide
theorem test_encIllegal12to15 : (after (.encIllegal12to15 15#4 true) State.reset).map (fun t => (t.faults, t.result)) =
    some ([⟨.encDigit 15#4, 0⟩], none) := by decide

/-! ### Serializer: examples of R122 to R128, vectors S1, S6 -/

theorem test_latchLo : (after (.latchLo 0#4) { State.reset with slatch := true, recv := ⟨7#16, 9#16⟩ }).map
    (fun t => (t.slatch, t.recv.out)) = some (false, 9#16) := by decide
/-- R123: W = 0xC001, n = 0 puts 1, n = 2 puts 0, n = 15 puts 1. -/
theorem test_sdataBit : [0#4, 2#4, 15#4].map (fun n => (after (.sdataBit n) State.reset).map (·.sdata)) =
    [some true, some false, some true] := by decide
/-- R134: the new bit goes to bit 0. -/
theorem test_sclkHi : (after (.sclkHi 3#4) { State.reset with sdata := true, recv := ⟨0x8002#16, 0#16⟩ }).map
    (fun t => (t.sclk, t.recv.sr)) = some (true, 0x0005#16) := by decide
theorem test_sclkLo : (after (.sclkLo 3#4) { State.reset with sclk := true, recv := ⟨0x8002#16, 0#16⟩ }).map
    (fun t => (t.sclk, t.recv.sr)) = some (false, 0x8002#16) := by decide
theorem test_latchHi : (after (.latchHi 0#4) { State.reset with recv := ⟨0xC001#16, 0#16⟩ }).map
    (fun t => (t.slatch, t.recv.out)) = some (true, 0xC001#16) := by decide
theorem test_sactRsvd101 : (after (.sactRsvd101 4#4) State.reset).map (fun t => (t.faults, t.sdata, t.sclk, t.slatch)) =
    some ([⟨.sactRsvd 0b101#3, 0⟩], false, false, false) := by decide
theorem test_sactRsvd11x : (after (.sactRsvd11x 0b111#3 0#4) State.reset).map (fun t => (t.faults, t.sdata, t.sclk, t.slatch)) =
    some ([⟨.sactRsvd 0b111#3, 0⟩], false, false, false) := by decide
/-- Vector S1. -/
theorem test_action_index : [1, 4, 46, 48].map actionAt =
    [(sphData, 0#4), (sphData, 1#4), (sphData, 15#4), (sphClkLo, 15#4)] := by decide
/-- R128: WRITE_FRAME 0xC0, 0x01; R134: SR = OUT = W. -/
theorem test_writeFrame : (after (.writeFrame 0xC0#8 0x01#8) State.reset).map
    (fun t => (t.recv.sr, t.recv.out, t.sdata, t.sclk, t.slatch)) = some (0xC001#16, 0xC001#16, true, false, true) := by decide

/-! ### Multiplexer: examples of R153, R154, R156, vectors W7, M1, M2, M4, M5, M6 -/

/-- W7. -/
theorem test_loadTime : (after .loadTime (atTime 9#6 5#7)).map (fun t => (t.rdig, t.rdpen, t.rdppos, t.dph)) =
    some (#v[0#4, 5#4, 0#4, 9#4], true, 1#2, dphShift) := by decide
theorem test_loadTime_words : (after .loadTime (atTime 9#6 5#7)).map words =
    some [some 0xC001#16, some 0x1202#16, some 0xC004#16, some 0x9008#16] := by decide
/-- R154's example, and truncation of 12345 (M1). -/
theorem test_loadExt : (after .loadExt { State.reset with inputs :=
      { Inputs.launch with extValue := 2750#16, extDpEn := true, extDpPos := 0#2 } }).map (fun t => (t.rdig, t.rdpen, t.rdppos)) =
    some (#v[2#4, 7#4, 5#4, 0#4], true, 0#2) := by decide
theorem test_digits_truncate : digits 12345#16 = #v[2#4, 3#4, 4#4, 5#4] ∧ digits 65535#16 = #v[5#4, 5#4, 3#4, 5#4] := by decide
/-- M2: the point on position 2, and none with `en` = 0. -/
theorem test_point_gating :
    words (loaded 1234#16 true 2#2) = [some 0xF901#16, some 0xA402#16, some 0x3004#16, some 0x9908#16] ∧
    words (loaded 1234#16 false 2#2) = [some 0xF901#16, some 0xA402#16, some 0xB004#16, some 0x9908#16] := by decide
/-- R121: with PHASE_CYCLES = 2 the first SHIFT edge lowers the latch and counts the phase. -/
theorem test_shift_counts_phase : (after (.shift true) { loaded 509#16 true 1#2 with slatch := true }).map
    (fun t => (t.slatch, t.sph, t.pcnt)) = some (false, sphLatchLo, 1) := by decide
/-- R155: the last SHIFT edge of a frame moves to SETTLE. -/
theorem test_shift_ends_frame : (after (.shift false) { loaded 509#16 true 1#2 with sph := sphLatchHi, pcnt := 1 }).map
    (fun t => (t.dph, t.scnt, t.pcnt)) = some (dphSettle, 0, 0) := by decide
/-- M5: S = 3, the third edge of position 1. -/
theorem test_settle_next_digit : (after (.settle false) { slow with dph := dphSettle, didx := 1#2, scnt := 2, sph := sphLatchHi }).map
    (fun t => (t.didx, t.dph, t.sph, t.sbit)) = some (2#2, dphShift, sphLatchLo, 0#4) := by decide
/-- M5: the same of position 3. -/
theorem test_settle_ends_cycle : (after (.settle true) { slow with dph := dphSettle, didx := 3#2, scnt := 2, sph := sphLatchHi }).map
    (fun t => (t.didx, t.dph)) = some (0#2, dphLoad) := by decide
/-- M6. -/
theorem test_dphRsvd : (after (.dphRsvd false) { State.reset with dph := dphReserved }).map (·.faults) =
    some [⟨.dphRsvd 0b11#2, 0⟩] := by decide
/-- M4: cycle length at P = 2, S = 3. -/
theorem test_cycle_length : slow.cfg.cycleEdges = 413 := by decide
/-- R262's worked example. -/
theorem test_flicker_example : Config.launch.cycleEdges = 15997 ∧ Config.launch.meetsFlickerTarget = true := by decide
/-- R158: RENDER 509, 1, 1 ends with 0x9008 on the outputs, at LOAD. -/
theorem test_render : (after (.render 509#16 true 1#2) State.reset).map (fun t => (t.recv.out, t.dph, t.didx)) =
    some (0x9008#16, dphLoad, 0#2) := by decide +kernel
/-- M3: 99.59 ends with digit 9 on position 3. -/
theorem test_clockRender : (after .clockRender (atTime 59#6 99#7)).map (fun t => (t.recv.out, t.rdig, t.sec)) =
    some (0x9008#16, #v[9#4, 9#4, 5#4, 9#4], 59#6) := by decide +kernel
/-- Q3: 12345, 1, 3 ends with digit 5 and its point. -/
theorem test_extRender : (after .extRender { State.reset with inputs :=
      { Inputs.launch with extValue := 12345#16, extDpEn := true, extDpPos := 3#2 } }).map (·.recv.out) =
    some 0x1208#16 := by decide +kernel

/-! ### Time: vectors T1, T2, T4, T6, and POR -/

theorem test_tick_carry : (after .tick (atTime 59#6 4#7)).map (fun t => (t.sec, t.min)) = some (0#6, 5#7) := by decide
theorem test_tick_wraps : (after .tick (atTime 59#6 99#7)).map (fun t => (t.sec, t.min, t.faults)) = some (0#6, 0#7, []) := by decide
theorem test_treset : (after (.treset true) (atTime 63#6 127#7)).map (fun t => (t.sec, t.min, t.faults)) =
    some (0#6, 0#7, []) := by decide
theorem test_thold : after .thold (atTime 17#6 42#7) = some (atTime 17#6 42#7) := by decide
theorem test_thold_out_of_range : (after .thold (atTime 0#6 100#7)).map (·.faults) = some [⟨.timeInv 100#7 0#6, 0⟩] := by decide
theorem test_snapshot : (after .snapshot (atTime 40#6 1#7)).map (·.result) = some (some (.time 40#6 1#7)) := by decide
/-- F5: from unreachable codes with a record, POR gives the reset registers and keeps the record. -/
theorem test_por : after (.por true true)
      { State.reset with sec := 63#6, dph := dphReserved, pcnt := 5, slatch := true, faults := [⟨.stateInv .pcnt, 0⟩] } =
    some { State.reset with faults := [⟨.stateInv .pcnt, 0⟩] } := by decide

/-! ### Clock edges: Q1's first edge, S6, T4, F1 to F4 -/

/-- Q1, edge 1: LOAD_TIME and THOLD at one edge. -/
theorem test_edge_load : (nextOf (step State.reset)).map (fun t => (t.dph, t.rdig, t.rdpen, t.edge)) =
    some (dphShift, #v[0#4, 0#4, 0#4, 0#4], true, 1) := by decide
/-- S6. -/
theorem test_edge_reserved_action : (nextOf (step { State.reset with dph := dphShift, sph := 0b101#3 })).map
    (fun t => (t.faults, t.sdata, t.sclk, t.slatch)) = some ([⟨.sactRsvd 0b101#3, 0⟩], false, false, false) := by decide
/-- T4: TICK at SEC = 60. -/
theorem test_edge_time_out_of_range : (nextOf (step (atEdge (atTime 60#6 0#7) { Inputs.launch with tick := true }))).map
    (fun t => (t.faults, t.sec, t.dph)) = some ([⟨.timeInv 0#7 60#6, 0⟩], 60#6, dphLoad) := by decide
/-- T4 and W6: TRESET clears an out-of-range time with no fault, here at a LOAD_TIME edge, which captures 127 * 100 + 63. -/
theorem test_edge_treset_out_of_range : (nextOf (step (atEdge (atTime 63#6 127#7) { Inputs.launch with treset := true }))).map
    (fun t => (t.sec, t.min, t.faults, t.rdig)) = some (0#6, 0#7, [], #v[2#4, 7#4, 6#4, 3#4]) := by decide
/-- F1 and F2. -/
theorem test_edge_counter_out_of_range :
    (nextOf (step { State.reset with dph := dphShift, pcnt := 1 })).map (·.faults) = some [⟨.stateInv .pcnt, 0⟩] ∧
    (nextOf (step { slow with dph := dphSettle, scnt := 3 })).map (·.faults) = some [⟨.stateInv .scnt, 0⟩] := by decide
/-- F3 and F4. -/
theorem test_edge_register_out_of_range :
    (nextOf (step { State.reset with dph := dphSettle, rdig := #v[0#4, 0#4, 12#4, 0#4] })).map (·.faults) =
      some [⟨.stateInv .rdig, 0⟩] ∧
    (nextOf (step { State.reset with dph := dphShift, sph := sphLatchHi, sbit := 5#4 })).map (·.faults) =
      some [⟨.stateInv .sbit, 0⟩] := by decide
/-- R220: after a record there is no further step. -/
theorem test_no_step_after_fault : step { State.reset with faults := [⟨.dphRsvd 3#2, 4⟩] } =
    .fault (.recorded ⟨.dphRsvd 3#2, 4⟩) := rfl
/-- R7: a build with PHASE_CYCLES = 0 is refused. -/
theorem test_bad_build_refused : step { State.reset with cfg := { Config.launch with phaseCycles := 0 } } =
    .refused .badConfig := rfl

/-! ### Witnesses: for each statement with hypotheses, cases that meet them, at the ends of the ranges of its clauses -/

theorem exists_next {o : Host.Outcome State Fault Refusal} (h : (nextOf o).isSome = true) : ∃ t, o = .next t := by
  cases o <;> simp_all [nextOf]

/-- A reset released edge with a tick. -/
def tickEdge : Inputs := { Inputs.launch with tick := true }
/-- A reset edge. -/
def porEdge : Inputs := { Inputs.launch with rstN := false }
/-- Launch with external source and a value above 9999. -/
def external : State := { slow with inputs := { Inputs.launch with srcSel := true, extValue := 12345#16, extDpEn := true } }
/-- Digit 0's last settle edge. -/
def settling : State := { loaded 509#16 true 1#2 with dph := dphSettle, sph := sphLatchHi, slatch := true, scnt := 2 }

theorem reset_legal : State.reset.Legal := ⟨by decide, by decide, by decide⟩
theorem slow_legal : slow.Legal := ⟨by decide, by decide, by decide⟩
theorem loaded_legal : (loaded 509#16 true 1#2).Legal := ⟨by decide, by decide, by decide⟩
theorem settling_legal : settling.Legal := ⟨by decide, by decide, by decide⟩
theorem external_legal : external.Legal := ⟨by decide, by decide, by decide⟩

theorem witness_SelectorRowsReadAsTheTables : (0#4).toNat < 8 ∧ (7#4).toNat < 8 ∧ ((8#4).toNat = 8 ∨ (8#4).toNat = 9) ∧
    ((9#4).toNat = 8 ∨ (9#4).toNat = 9) ∧ ((10#4).toNat = 10 ∨ (10#4).toNat = 11) ∧ ((11#4).toNat = 10 ∨ (11#4).toNat = 11) ∧
    12 ≤ (12#4).toNat ∧ 12 ≤ (15#4).toNat := by decide
theorem witness_DecodeUndoesEncode : (Instr.render 65535#16 true 3#2).wf = true ∧ (Instr.encode0to7 0#4 false).wf = true ∧
    (Instr.sactRsvd11x 0b110#3 15#4).wf = true := by decide
theorem witness_EncodeUndoesDecode : decode 0x2000001F#32 = .ok (.sdataBit 15#4) ∧ wordTag 0x2000001F#32 ≠ 0#4 :=
  ⟨rfl, by decide⟩
theorem witness_DecodedOperationsAreWellFormed : decode 0x20000060#32 = .ok (.sactRsvd11x 0b110#3 0#4) := rfl
theorem witness_EncodeLooksUpTheTable : (9#4).toNat < 10 ∧ (7#4).toNat < 8 ∧ 8 ≤ (8#4).toNat ∧ State.reset.cfg.dpBit = 7 := by
  decide
theorem witness_EncodeDefaultTableValues : State.reset.cfg.dpBit = 7 ∧ State.reset.cfg.segTable = segTableDefault := ⟨rfl, rfl⟩
theorem witness_IllegalDigitIsRecorded : ((10#4).toNat = 10 ∨ (10#4).toNat = 11) ∧ ((11#4).toNat = 10 ∨ (11#4).toNat = 11) ∧
    12 ≤ (12#4).toNat ∧ 12 ≤ (15#4).toNat ∧ State.reset.cfg.Valid := by decide
theorem witness_FrameWordIsMaskAndSelect : (loaded 509#16 true 1#2).cfg.segTable[
    ((loaded 509#16 true 1#2).rdig[(loaded 509#16 true 1#2).didx.toNat]).toNat]? = some 0xC0#8 := by decide
theorem witness_SdataBitSendsMostSignificantFirst : (loaded 509#16 true 1#2).curWord = .ok (0xC0#8 ++ 0x01#8) := rfl
theorem witness_WriteFrameCommitsItsWord : State.reset.EngineLegal ∧ State.reset.sclk = false := ⟨reset_legal.2.2, rfl⟩
theorem witness_ClockedFrameRefinesWriteFrame : (loaded 509#16 true 1#2).EngineLegal ∧ (loaded 509#16 true 1#2).dph = dphShift ∧
    (loaded 509#16 true 1#2).sph = sphLatchLo ∧ (loaded 509#16 true 1#2).pcnt = 0 ∧
    (loaded 509#16 true 1#2).curWord = .ok (0xC0#8 ++ 0x01#8) := ⟨loaded_legal.2.2, rfl, rfl, rfl, rfl⟩
theorem witness_DigitsRecompose : (9999#16).toNat ≤ 9999 := by decide
/-- In range at both ends, and out of range by one. -/
theorem witness_LoadTimeCapturesTheTime : (atTime 59#6 99#7).EngineLegal ∧ (59#6).toNat < 60 ∧ (99#7).toNat < 100 ∧
    (atTime 60#6 0#7).EngineLegal ∧ 60 ≤ (60#6).toNat ∧ (atTime 0#6 100#7).EngineLegal ∧ 100 ≤ (100#7).toNat := by decide
theorem witness_LoadExtCapturesThePorts : external.EngineLegal := external_legal.2.2
/-- First and last edge of a phase, and the last action of a frame. -/
theorem witness_ShiftPerformsOneSerializerEdge : (loaded 509#16 true 1#2).EngineLegal ∧
    ({ loaded 509#16 true 1#2 with pcnt := 1 } : State).EngineLegal ∧
    ({ loaded 509#16 true 1#2 with sph := sphLatchHi, pcnt := 1 } : State).EngineLegal := by decide
/-- Within the interval, its end at position 0, its end at position 3. -/
theorem witness_SettleHoldsThenAdvances : ({ settling with scnt := 0 } : State).EngineLegal ∧ settling.EngineLegal ∧
    ({ settling with didx := 3#2 } : State).EngineLegal := by decide
theorem witness_ReservedPhaseIsRecorded : ({ ({ slow with dph := dphReserved } : State) with dph := dphLoad } : State).EngineLegal :=
  slow_legal.2.2
theorem witness_RenderSendsFourFramesInOrder : slow.EngineLegal := slow_legal.2.2
theorem witness_PseudoOperationsExpandToRender : slow.EngineLegal ∧ slow.TimeInRange := ⟨slow_legal.2.2, slow_legal.2.1⟩
theorem witness_ClockedCycleRefinesRender : slow.EngineLegal ∧ slow.dph = dphLoad ∧ slow.inputs.srcSel = false ∧
    slow.TimeInRange ∧ external.EngineLegal ∧ external.dph = dphLoad ∧ external.inputs.srcSel = true :=
  ⟨slow_legal.2.2, rfl, rfl, slow_legal.2.1, external_legal.2.2, rfl, rfl⟩
theorem witness_DigitLatchesAtItsOffset : external.EngineLegal ∧ external.dph = dphLoad ∧ external.sclk = false ∧
    external.inputs.srcSel = true ∧ external.inputs.extValue.toNat = 12345 ∧ slow.EngineLegal ∧ slow.dph = dphLoad ∧
    slow.sclk = false ∧ slow.inputs.srcSel = false ∧ slow.TimeInRange ∧ slow.min.toNat * 100 + slow.sec.toNat = 0 :=
  ⟨external_legal.2.2, rfl, rfl, rfl, rfl, slow_legal.2.2, rfl, rfl, rfl, slow_legal.2.1, rfl⟩
theorem witness_TickCountsOneSecond : (58#6).toNat < 59 ∧ (99#7).toNat < 100 ∧ (59#6).toNat = 59 ∧ (98#7).toNat < 99 ∧
    (99#7).toNat = 99 ∧ 60 ≤ (60#6).toNat ∧ 100 ≤ (100#7).toNat := by decide
theorem witness_TholdKeepsTheTime : (atTime 59#6 99#7).TimeInRange ∧ ¬(atTime 60#6 0#7).TimeInRange ∧
    ¬(atTime 0#6 100#7).TimeInRange := by decide
theorem witness_TicksCloseForm : State.reset.sec = 0#6 ∧ State.reset.min = 0#7 := ⟨rfl, rfl⟩
/-- A TRESET with a tick, then a tick and a hold, mid-frame; and a POR edge. -/
theorem witness_CountSinceTheLastReset :
    let ins := [tickEdge, Inputs.launch]
    let s : State := { loaded 509#16 true 1#2 with stim := .edge { tickEdge with treset := true } :: ins.map .edge ++ [] }
    s.Legal ∧ s.faults = [] ∧ ({ tickEdge with treset := true } : Inputs).treset = true ∧ porEdge.rstN = false ∧
    (∀ y ∈ ins, y.rstN = true ∧ y.treset = false) := ⟨loaded_legal, rfl, rfl, rfl, by decide⟩
theorem witness_TimeRangeIsKept : (atTime 59#6 99#7).TimeInRange ∧ (∃ t, step (atTime 59#6 99#7) = .next t) ∧
    ∃ t, exec (.por true true) (atTime 63#6 127#7) = .next t := ⟨by decide, exists_next (by decide), ⟨_, rfl⟩⟩
theorem witness_ResetOverTickAtOneEdge : (atEdge slow tickEdge).Legal ∧ (atEdge slow tickEdge).faults = [] ∧
    (atEdge slow tickEdge).stim = .edge tickEdge :: [] := ⟨slow_legal, rfl, rfl⟩
theorem witness_UnitsWriteDisjointRegisters : (∃ t, exec .tick State.reset = .next t) ∧
    (∃ t, exec .loadTime State.reset = .next t) ∧ Instr.loadTime.tag ≠ 4#4 := ⟨⟨_, rfl⟩, ⟨_, rfl⟩, by decide⟩
theorem witness_OnlyTheSerializerWritesTheLines : ∃ t, exec (.settle true) settling = .next t := ⟨_, rfl⟩
/-- Mid-frame, and with unreachable codes. -/
theorem witness_ResetEdgeAbandonsTheFrame : (atEdge (loaded 509#16 true 1#2) porEdge).cfg.Valid ∧
    (atEdge (loaded 509#16 true 1#2) porEdge).faults = [] ∧ porEdge.rstN = false ∧
    (atEdge { slow with dph := dphReserved, sec := 63#6 } porEdge).cfg.Valid := ⟨slow_legal.1, rfl, rfl, slow_legal.1⟩
theorem witness_StepsKeepLegality : (atEdge settling tickEdge).Legal ∧ ∃ t, step (atEdge settling tickEdge) = .next t :=
  ⟨settling_legal, exists_next (by decide)⟩
theorem witness_LegalEdgesNeverFault : (atEdge settling tickEdge).Legal ∧ (atEdge settling tickEdge).faults = [] ∧
    (atEdge settling tickEdge).NextIsEdge ∧ settling.NextIsEdge := ⟨settling_legal, rfl, trivial, trivial⟩
/-- Recorded: a tick; cleared: TRESET at a LOAD_TIME edge and while shifting, and POR. -/
theorem witness_OutOfRangeTimeIsRecorded :
    (atEdge (atTime 60#6 0#7) tickEdge).cfg.Valid ∧ (atEdge (atTime 60#6 0#7) tickEdge).EngineLegal ∧
    (atEdge (atTime 60#6 0#7) tickEdge).faults = [] ∧ 60 ≤ (60#6).toNat ∧ 100 ≤ (100#7).toNat ∧
    (atTime 60#6 0#7).dph = dphLoad ∧ ({ loaded 509#16 true 1#2 with sec := 60#6 } : State).EngineLegal ∧
    (loaded 509#16 true 1#2).dph ≠ dphLoad ∧ porEdge.rstN = false ∧ tickEdge.rstN = true ∧ tickEdge.treset = false ∧
    tickEdge.srcSel = false := by decide
/-- Each unreachable code, at the end of its range. -/
theorem witness_UnreachableCodesAreRecorded : slow.cfg.Valid ∧ slow.faults = [] ∧
    ¬(atEdge { slow with dph := 0b11#2 } tickEdge).EngineLegal ∧ ¬(atEdge { slow with sph := 0b101#3 } tickEdge).EngineLegal ∧
    ¬(atEdge { slow with pcnt := 2 } tickEdge).EngineLegal ∧ ¬(atEdge { slow with scnt := 3 } tickEdge).EngineLegal ∧
    ¬(atEdge { slow with rdig := #v[0#4, 0#4, 0#4, 10#4] } tickEdge).EngineLegal ∧ ¬(atEdge { slow with sbit := 1#4 } tickEdge).EngineLegal ∧
    ¬(atEdge { slow with sph := sphLatchHi, sbit := 15#4 } tickEdge).EngineLegal ∧ tickEdge.rstN = true :=
  ⟨by decide, rfl, by decide, by decide, by decide, by decide, by decide, by decide, by decide, rfl⟩
theorem witness_RecordedFaultsAreSticky : (∃ t, exec (.por false false) { State.reset with faults := [⟨.dphRsvd 3#2, 0⟩] } = .next t) ∧
    State.reset.cfg.Valid := ⟨⟨_, rfl⟩, reset_legal.1⟩
theorem witness_BuildTimeTablesNeverChange : ∃ t, step (atEdge settling tickEdge) = .next t := exists_next (by decide)
/-- Each constraint of R7 broken by itself. -/
theorem witness_BrokenConfigurationIsRefused :
    (#v[0x40#8, 0xF9#8, 0xA4#8, 0xB0#8, 0x99#8, 0x92#8, 0x82#8, 0xF8#8, 0x80#8, 0x90#8] : Vector Byte 10)[(0 : Fin 10)].getLsbD 7
      = false ∧
    (∀ k : Fin 8, (#v[0x01#8, 0x02#8, 0x04#8, 0x0C#8] : Vector Byte 4)[(3 : Fin 4)] ≠ BitVec.ofNat 8 (2 ^ k.val)) ∧
    (#v[0x01#8, 0x02#8, 0x02#8, 0x08#8] : Vector Byte 4)[(1 : Fin 4)] =
      (#v[0x01#8, 0x02#8, 0x02#8, 0x08#8] : Vector Byte 4)[(2 : Fin 4)] ∧
    ({ Config.launch with phaseCycles := 0 } : Config).phaseCycles = 0 ∧
    ({ Config.launch with settleCycles := 0 } : Config).settleCycles = 0 := by decide
theorem witness_CountersFitTheirWidths : State.reset.EngineLegal ∧ ({ settling with pcnt := 1 } : State).EngineLegal :=
  ⟨reset_legal.2.2, by decide⟩
theorem witness_StepRunsTheDecodedOperation : ({ slow with stim := [.op 0x40000001#32] } : State).cfg.Valid ∧
    ({ slow with stim := [.op 0x40000001#32] } : State).faults = [] ∧ decode 0x40000001#32 = .ok .tick :=
  ⟨slow_legal.1, rfl, rfl⟩
theorem witness_FetchWordRunsNext : State.reset.cfg.Valid ∧ State.reset.faults = [] ∧
    decodeTableWord 8 0b1000000 = some (.latchHi 0#4) := ⟨reset_legal.1, rfl, rfl⟩
/-- A listed edge, and the idle edge of a used up stimulus. -/
theorem witness_ClockEdgeRunsBothUnits : (atEdge settling tickEdge).cfg.Valid ∧ (atEdge settling tickEdge).faults = [] ∧
    (atEdge settling tickEdge).stim = .edge tickEdge :: [] ∧ settling.stim = [] ∧ tickEdge.rstN = true ∧ porEdge.rstN = false :=
  ⟨settling_legal.1, rfl, rfl, rfl, rfl, rfl⟩
theorem witness_LoadReadsTheTimeBeforeTheTick : (atEdge slow tickEdge).Legal ∧ (atEdge slow tickEdge).faults = [] ∧
    (atEdge slow tickEdge).dph = dphLoad ∧ tickEdge.rstN = true ∧ tickEdge.treset = false ∧ tickEdge.tick = true ∧
    tickEdge.srcSel = false := ⟨slow_legal, rfl, rfl, rfl, rfl, rfl, rfl⟩
theorem witness_DisplayIgnoresTimeBetweenLoads : (atEdge settling tickEdge).Legal ∧ (atEdge settling tickEdge).faults = [] ∧
    (59#6).toNat < 60 ∧ (99#7).toNat < 100 ∧ (atEdge settling tickEdge).dph ≠ dphLoad ∧
    (atEdge settling tickEdge).stim = .edge tickEdge :: [] ∧ ∃ t, step (atEdge settling tickEdge) = .next t :=
  ⟨settling_legal, rfl, by decide, by decide, by decide, rfl, exists_next (by decide)⟩
theorem witness_SourceInputsReadOnlyAtLoad : (atEdge settling tickEdge).Legal ∧ (atEdge settling tickEdge).faults = [] ∧
    (atEdge settling tickEdge).dph ≠ dphLoad ∧ (atEdge settling tickEdge).stim = .edge tickEdge :: [] ∧
    ∃ t, step (atEdge settling tickEdge) = .next t := ⟨settling_legal, rfl, by decide, rfl, exists_next (by decide)⟩
/-- In each of the three phases. -/
theorem witness_LinesStayInPhase : slow.Legal ∧ slow.LinesInPhase ∧ slow.NextIsEdge ∧ settling.Legal ∧
    ({ settling with didx := 3#2 } : State).LinesInPhase ∧ (loaded 509#16 true 1#2).Legal ∧
    (loaded 509#16 true 1#2).LinesInPhase ∧ ∃ t, step slow = .next t :=
  ⟨slow_legal, by decide, trivial, settling_legal, by decide, loaded_legal, by decide, exists_next (by decide)⟩
/-- An edge at which SDATA changes, and one at which SCLK changes. -/
theorem witness_OneLineChangesAtAnEdge :
    (nextOf (step { loaded 509#16 true 1#2 with sph := sphData })).map (fun t => (t.sdata, t.inputs.rstN)) = some (true, true) ∧
    (loaded 509#16 true 1#2).sdata = false ∧
    (nextOf (step { loaded 509#16 true 1#2 with sph := sphClkHi })).map (·.sclk) = some true ∧
    (loaded 509#16 true 1#2).sclk = false ∧ (loaded 509#16 true 1#2).NextIsEdge :=
  ⟨by decide, rfl, by decide, rfl, trivial⟩
/-- An edge at which SLATCH rises, and one at which SCLK rises, from legal states. -/
theorem witness_LinesRiseOnlyInTheirActions :
    ({ loaded 509#16 true 1#2 with sph := sphLatchHi } : State).Legal ∧
    (nextOf (step { loaded 509#16 true 1#2 with sph := sphLatchHi })).map (·.slatch) = some true ∧
    ({ loaded 509#16 true 1#2 with sph := sphClkHi } : State).Legal ∧
    (nextOf (step { loaded 509#16 true 1#2 with sph := sphClkHi })).map (·.sclk) = some true ∧
    (loaded 509#16 true 1#2).slatch = false ∧ (loaded 509#16 true 1#2).sclk = false ∧
    (loaded 509#16 true 1#2).NextIsEdge :=
  ⟨⟨by decide, by decide, by decide⟩, by decide, ⟨by decide, by decide, by decide⟩, by decide, rfl, rfl, trivial⟩

end Sys2Proof.Tests
end

section
/-! PROOFS. What a step answers, case by case: a refused build (R7), a directly applied operation (logs 1 and 2), a clock edge at
which neither unit raises, and a POR edge (R10). The four statements about the step itself follow. -/
namespace Sys2Proof.Machine

/-! ### A build that breaks a constraint -/

theorem step_of_not_valid {s : State} (h : ¬s.cfg.Valid) : step s = .refused .badConfig := if_neg h

/-- The one-hot bytes are the powers of two. -/
theorem oneHot_iff (b : Byte) : OneHot b ↔ ∃ k : Fin 8, b = BitVec.ofNat 8 (2 ^ k.val) := by
  have shift : ∀ k : Fin 8, 1#8 <<< k.val = BitVec.ofNat 8 (2 ^ k.val) := by decide
  simp only [OneHot, shift]

/-- Settles O46: each alternative contradicts one conjunct of `Config.Valid`, and the step refuses an invalid configuration. -/
theorem brokenConfigurationIsRefused : Obligations.BrokenConfigurationIsRefused := by
  intro s broken
  apply step_of_not_valid
  rintro ⟨points, oneHot, distinct, phase, settle, -⟩
  rcases broken with ⟨d, clear⟩ | ⟨i, notOneHot⟩ | ⟨i, j, hij, same⟩ | noPhase | noSettle
  · exact absurd (points d) (ne_true_of_eq_false clear)
  · obtain ⟨k, hk⟩ := (oneHot_iff _).mp (oneHot i)
    exact notOneHot k hk
  · exact distinct i j hij same
  · omega
  · omega

/-! ### A directly applied operation -/

theorem applyWord_of_decode {w : OpWord} {i : Instr} (h : decode w = .ok i) (s : State) : applyWord w s = exec i s := by
  simp only [applyWord, h]

theorem step_of_op {s : State} {w : OpWord} {i : Instr} {rest : List Stimulus} (hv : s.cfg.Valid) (hf : s.faults = [])
    (hs : s.stim = .op w :: rest) (hw : decode w = .ok i) : step s = exec i { s with stim := rest } := by
  have run : s.runNext = applyWord w { s with stim := rest } := by simp only [State.runNext, hs]
  rw [step_eq_runNext hv hf, run, applyWord_of_decode hw]

theorem decode_of_decodeTableWord {nbits w : Nat} {i : Instr} (h : decodeTableWord nbits w = some i) :
    decode (BitVec.ofNat 32 (w % 2 ^ nbits)) = .ok i := by
  unfold decodeTableWord at h
  split at h
  · rwa [← Option.some.inj h]
  · cases h

/-- Settles O48. -/
theorem stepRunsTheDecodedOperation : Obligations.StepRunsTheDecodedOperation :=
  fun _ _ _ _ hv hf hs hw => step_of_op hv hf hs hw

/-- Settles O49: taking the placed item off again gives back the state it was placed on. -/
theorem fetchWordRunsNext : Obligations.FetchWordRunsNext :=
  fun s nbits w _ hv hf hw => step_of_op (s := s.withFetchWord nbits w) hv hf rfl (decode_of_decodeTableWord hw)

/-! ### A clock edge -/

/-- A listed edge, or the idle edge after the last item (log 3). -/
theorem step_of_edge_or_idle {s : State} {x : Inputs} {rest : List Stimulus} (hv : s.cfg.Valid) (hf : s.faults = [])
    (hs : s.stim = .edge x :: rest ∨ (s.stim = [] ∧ rest = [] ∧ x = s.inputs.idle)) :
    step s = clockEdge (s.sample x rest) := by
  rcases hs with listed | ⟨used, rfl, rfl⟩
  · exact step_of_edge hv hf listed
  · rw [step_eq_runNext hv hf]
    simp only [State.runNext, used]

theorem State.raise_faults_eq_iff (s : State) (cs : List FaultCause) : (s.raise cs).faults = s.faults ↔ cs = [] := by
  rw [State.raise_faults, List.append_right_eq_self, List.map_eq_nil_iff]
  constructor
  · intro h
    exact Classical.byContradiction fun hne => orderByCode_ne_nil hne h
  · rintro rfl
    exact orderByCode_nil

/-- A LOAD_TIME that records nothing is a LOAD_TIME that does not check the time. -/
theorem State.loadTime_of_quiet {s : State} {cs : List FaultCause} (h : (s.loadTime cs).faults = s.faults) :
    s.loadTime cs = s.loadTime [] := by
  have noCause : engineFaults s ++ cs = [] := by
    rcases s.unlessFault_cases (s.capture (digits s.timeValue) true timeDpPos) (engineFaults s ++ cs) with
      ⟨e, -⟩ | ⟨-, e⟩
    · exact e
    · rw [State.loadTime, e] at h
      exact (s.raise_faults_eq_iff _).mp h
  rw [(List.append_eq_nil_iff.mp noCause).2]

/-- Where the selected operation records nothing, the display half of the edge is that operation, at a TRESET too. -/
theorem State.displayUpdate_of_quiet {s d : State} (h : exec s.displayOp s = .next d) (hd : d.faults = s.faults) :
    s.displayUpdate = .next d := by
  obtain ⟨d', h'⟩ := s.displayUpdate_next
  rcases State.displayUpdate_cases h' with ⟨-, load, time, rfl⟩ | ⟨-, e⟩
  · have op : s.displayOp = .loadTime := by simp [s.displayOp_eq, load, time]
    rw [op] at h
    cases h
    rw [h', State.loadTime_of_quiet hd]
  · rw [h', ← h, e]

/-- Out of POR, with neither unit recording a fault, both units' writes land together (R10). -/
theorem clockEdge_of_quiet {u t d : State} (hr : u.inputs.rstN = true) (ht : exec u.timeOp u = .next t)
    (hd : exec u.displayOp u = .next d) (tq : t.faults = u.faults) (dq : d.faults = u.faults) :
    clockEdge u = .next (d.setTime t.sec t.min).countEdge := by
  simp only [clockEdge, ht, hr, if_true, State.displayUpdate_of_quiet hd dq, State.joinUnits_quiet tq dq]

/-- At a POR edge TIME's decoder selects POR, which acts alone (R80, R250). -/
theorem clockEdge_of_por {u t : State} (hr : u.inputs.rstN = false) (ht : exec u.timeOp u = .next t) :
    clockEdge u = .next t.countEdge := by
  simp [clockEdge, ht, hr]

theorem State.countEdge_eq {s t : State} (h : t.edge = s.edge) : t.countEdge = { t with edge := s.edge + 1 } := by
  rw [State.countEdge, h]

/-- Settles O50: the two operations of the edge are `timeOp` and `displayOp` of the sampled state, and neither moves the edge
number. -/
theorem clockEdgeRunsBothUnits : Obligations.ClockEdgeRunsBothUnits := by
  intro s x rest hv hf hs u
  obtain ⟨t, ht⟩ := exec_next u.timeOp u
  obtain ⟨d, hd⟩ := exec_next u.displayOp u
  obtain ⟨-, -, -, tEdge, -⟩ := exec_environment ht
  obtain ⟨-, -, -, dEdge, -⟩ := exec_environment hd
  have edge : step s = clockEdge u := step_of_edge_or_idle hv hf hs
  refine ⟨t, d, ht, hd, fun hr tq dq => ?_, fun hr => ?_⟩
  · rw [edge, clockEdge_of_quiet hr ht hd (tq.trans hf.symm) (dq.trans hf.symm),
      State.countEdge_eq (s := u) (t := d.setTime t.sec t.min) dEdge]
    rfl
  · rw [edge, clockEdge_of_por hr ht, State.countEdge_eq tEdge]

end Sys2Proof.Machine
end

section
/-! PROOFS. The state as a whole: its legality along every step (R24, R42, R198), who may write the lines (R32), what an edge from an
unreachable code records (R42, R220), the widths of the counters (R28, R29), and the values after a reset (R41). -/
namespace Sys2Proof.Machine

/-! ### Every step keeps a legal state legal -/

theorem State.encodeDigit_time (s : State) (d : BitVec 4) (dp : Bool) :
    (s.encodeDigit d dp).sec = s.sec ∧ (s.encodeDigit d dp).min = s.min := by
  unfold State.encodeDigit
  split <;> exact ⟨rfl, rfl⟩

/-- Only TIME and POR, whose tag is that of `CTL`, write the time (R62, R197). -/
theorem exec_keeps_time {i : Instr} {s t : State} (hi : i.tag ≠ 4#4) (h : exec i s = .next t) :
    t.sec = s.sec ∧ t.min = s.min := by
  by_cases engine : i.tag = 2#4 ∨ i.tag = 3#4 ∨ i.tag = 5#4 ∨ i.tag = 6#4 ∨ i.tag = 8#4 ∨ i.tag = 9#4
  · have frame := exec_engineFrame h engine
    exact ⟨frame.sec, frame.min⟩
  · cases i <;> simp [Instr.tag] at hi engine
    case encode0to7 d dp => cases h; exact s.encodeDigit_time d dp
    case encode8to9 d dp => cases h; exact s.encodeDigit_time d dp
    case encIllegal10to11 => cases h; exact ⟨rfl, rfl⟩
    case encIllegal12to15 => cases h; exact ⟨rfl, rfl⟩
    case snapshot => cases h; exact ⟨rfl, rfl⟩

theorem State.TimeInRange.congr {s t : State} (h : s.TimeInRange) (e : t.sec = s.sec ∧ t.min = s.min) : t.TimeInRange := by
  rw [State.TimeInRange, e.1, e.2]
  exact h

theorem State.TimeInRange.unlessFault {s t : State} (h : s.TimeInRange) (k : t.TimeInRange) (cs : List FaultCause) :
    (s.unlessFault cs t).TimeInRange := by
  rcases s.unlessFault_cases t cs with ⟨-, e⟩ | ⟨-, e⟩ <;> rw [e]
  · exact k
  · exact h

/-- A tick within the range stays within it, both fields being remainders (R190, R198). -/
theorem State.TimeInRange.tick {s : State} (h : s.TimeInRange) :
    (s.setTime (nextSec s.sec) (nextMin s.sec s.min)).TimeInRange := by
  obtain ⟨hsec, hmin⟩ := nextTime_spec h
  rw [State.TimeInRange, State.setTime_sec, State.setTime_min, hsec, hmin]
  exact ⟨Nat.mod_lt _ (by decide), Nat.mod_lt _ (by decide)⟩

/-- R198 for one operation. -/
theorem exec_keeps_timeInRange {i : Instr} {s t : State} (h : s.TimeInRange) (e : exec i s = .next t) : t.TimeInRange := by
  by_cases time : i.tag = 4#4
  · have cleared : (0#6).toNat < 60 ∧ (0#7).toNat < 100 := by decide
    cases i <;> simp [Instr.tag] at time
    case por => cases e; exact cleared
    case treset => cases e; exact cleared
    case tick => cases e; exact h.unlessFault h.tick _
    case thold => cases e; exact h.unlessFault h _
  · exact h.congr (exec_keeps_time time e)

theorem exec_keeps_legal (i : Instr) (s t : State) (h : s.Legal) (e : exec i s = .next t) : t.Legal := by
  obtain ⟨valid, time, engine⟩ := h
  obtain ⟨cfg, -⟩ := exec_environment e
  exact ⟨cfg ▸ valid, exec_keeps_timeInRange time e, exec_keeps_engineLegal engine e⟩

/-- The LOAD_TIME of a TRESET edge, which does not check the time (log 5). -/
theorem State.Legal.loadTime {s : State} (h : s.Legal) (cs : List FaultCause) : (s.loadTime cs).Legal := by
  obtain ⟨valid, time, engine⟩ := h
  have frame := EngineFrame.loadTime s cs
  exact ⟨frame.cfg ▸ valid, time.congr ⟨frame.sec, frame.min⟩, engine.loadTime cs⟩

/-- An edge takes the time from one legal state and everything else from another, or only the record and the edge number move. -/
theorem clockEdge_keeps_legal {u t : State} (h : u.Legal) (e : clockEdge u = .next t) : t.Legal :=
  clockEdge_keeps State.Legal exec_keeps_legal
    (hload := fun _ hs => hs.loadTime [])
    (hjoin := fun _ _ ⟨_, time, _⟩ ⟨valid, _, engine⟩ => ⟨valid, time, engine⟩)
    (hraise := fun _ _ hs => hs) (hcount := fun _ hs => hs) h e

/-- Settles O40: the next item is a clock edge or one operation, and putting it on the ports or taking it off the stimulus touches
no field that legality reads. -/
theorem stepsKeepLegality : Obligations.StepsKeepLegality := by
  intro s t h e
  obtain ⟨-, -, run⟩ := step_next e
  rcases State.runNext_cases run with ⟨x, rest, edge⟩ | ⟨i, rest, op⟩
  · exact clockEdge_keeps_legal (u := s.sample x rest) h edge
  · exact exec_keeps_legal i { s with stim := rest } t h op

/-! ### Who writes the lines -/

/-- `t` has the lines and the receiver of `s`. -/
structure LinesKept (s t : State) : Prop where
  sdata : t.sdata = s.sdata
  sclk : t.sclk = s.sclk
  slatch : t.slatch = s.slatch
  recv : t.recv = s.recv

namespace LinesKept

theorem refl (s : State) : LinesKept s s := ⟨rfl, rfl, rfl, rfl⟩

theorem raise (s : State) (cs : List FaultCause) : LinesKept s (s.raise cs) := ⟨rfl, rfl, rfl, rfl⟩

theorem setTime (s : State) (sec : BitVec 6) (min : BitVec 7) : LinesKept s (s.setTime sec min) := ⟨rfl, rfl, rfl, rfl⟩

theorem capture (s : State) (d : Vector (BitVec 4) 4) (en : Bool) (p : BitVec 2) : LinesKept s (s.capture d en p) :=
  ⟨rfl, rfl, rfl, rfl⟩

theorem unlessFault {s t : State} (h : LinesKept s t) (cs : List FaultCause) : LinesKept s (s.unlessFault cs t) := by
  rcases s.unlessFault_cases t cs with ⟨-, e⟩ | ⟨-, e⟩ <;> rw [e]
  · exact h
  · exact raise s cs

theorem encodeDigit (s : State) (d : BitVec 4) (dp : Bool) : LinesKept s (s.encodeDigit d dp) := by
  unfold State.encodeDigit
  split <;> exact ⟨rfl, rfl, rfl, rfl⟩

/-- The digit keeps showing while it settles, and at the move to the next slot (R156). -/
theorem settleStep (s : State) : LinesKept s s.settleStep := by
  unfold State.settleStep
  repeat' split
  all_goals exact ⟨rfl, rfl, rfl, rfl⟩

end LinesKept

/-- The operations of the encoder, of TIME but for POR, of the phases but for SHIFT, and SNAPSHOT. -/
theorem exec_linesKept {i : Instr} {s t : State} (h : exec i s = .next t)
    (hi : i.tag = 1#4 ∨ i.tag = 7#4 ∨ i = .loadTime ∨ i = .loadExt ∨ (∃ b, i = .settle b) ∨ (∃ b, i = .dphRsvd b) ∨
      i = .tick ∨ i = .thold ∨ ∃ b, i = .treset b) : LinesKept s t := by
  cases i <;> simp [Instr.tag] at hi <;> cases h
  case encode0to7 d dp => exact .encodeDigit s d dp
  case encode8to9 d dp => exact .encodeDigit s d dp
  case encIllegal10to11 => exact .raise ..
  case encIllegal12to15 => exact .raise ..
  case loadTime => exact (LinesKept.capture ..).unlessFault _
  case loadExt => exact (LinesKept.capture ..).unlessFault _
  case settle => exact (LinesKept.settleStep s).unlessFault _
  case dphRsvd => exact .raise ..
  case treset => exact .setTime ..
  case tick => exact (LinesKept.setTime ..).unlessFault _
  case thold => exact (LinesKept.refl s).unlessFault _
  case snapshot => exact ⟨rfl, rfl, rfl, rfl⟩

/-- Settles O36. -/
theorem onlyTheSerializerWritesTheLines : Obligations.OnlyTheSerializerWritesTheLines := by
  intro i s t h hi
  obtain ⟨sdata, sclk, slatch, recv⟩ := exec_linesKept h hi
  exact ⟨sdata, sclk, slatch, recv⟩

/-! ### A clock edge from an unreachable engine code -/

/-- The conditions of R42, each with the record it makes (R220). -/
theorem mem_engineFaults {s : State} {c : FaultCause} : c ∈ engineFaults s ↔
    (s.dph = dphReserved ∧ c = .dphRsvd s.dph) ∨ (sphLatchHi < s.sph ∧ c = .sactRsvd s.sph) ∨
    (s.cfg.phaseCycles ≤ s.pcnt ∧ c = .stateInv .pcnt) ∨ (s.cfg.settleCycles ≤ s.scnt ∧ c = .stateInv .scnt) ∨
    ((∃ k : Fin 4, 10 ≤ s.rdig[k].toNat) ∧ c = .stateInv .rdig) ∨
    (((s.sph = sphLatchLo ∨ s.sph = sphLatchHi) ∧ s.sbit ≠ 0#4) ∧ c = .stateInv .sbit) := by
  simp only [engineFaults, List.mem_append, mem_causeIf, or_assoc]

/-- The record is ordered by code (R224): its groups ascend, and within a group all codes are the same. -/
theorem orderByCode_sorted (cs : List FaultCause) : (orderByCode cs).Pairwise fun a b => a.code ≤ b.code := by
  have code_of_mem : ∀ (k : Nat), ∀ c ∈ (cs.filter fun c => c.code == k).eraseDups, c.code = k := by
    intro k c hc
    rw [List.mem_eraseDups, List.mem_filter, beq_iff_eq] at hc
    exact hc.2
  rw [orderByCode, List.pairwise_flatMap]
  constructor
  · intro k _
    exact List.pairwise_of_forall_mem_list fun a ha b hb =>
      Nat.le_of_eq ((code_of_mem k a ha).trans (code_of_mem k b hb).symm)
  · have ascending : [1, 2, 3, 4, 5].Pairwise (· ≤ ·) := by decide
    refine ascending.imp fun hjk a ha b hb => ?_
    rwa [code_of_mem _ a ha, code_of_mem _ b hb]

theorem engineFaults_ne_nil {s : State} (h : ¬s.EngineLegal) : engineFaults s ≠ [] := mt (engineFaults_eq_nil s).mp h

/-- With an unreachable code, an operation that checks the engine's codes records and does not move (R42). -/
theorem State.unlessFault_of_not_legal {s : State} (h : ¬s.EngineLegal) {cs : List FaultCause} (all : engineFaults s ⊆ cs)
    (t : State) : s.unlessFault cs t = s.raise cs :=
  s.unlessFault_of_ne_nil t fun e => engineFaults_ne_nil h (List.subset_nil.mp (e ▸ all))

/-- Every operation that the display engine's phase selects checks the engine's codes (R42, log 4). -/
theorem exec_displayOp_of_not_legal {s d : State} (h : ¬s.EngineLegal) (e : exec s.displayOp s = .next d) :
    ∃ cs, engineFaults s ⊆ cs ∧ d = s.raise cs := by
  have records : ∀ {cs : List FaultCause} (t : State), engineFaults s ⊆ cs →
      ∃ cs', engineFaults s ⊆ cs' ∧ s.unlessFault cs t = s.raise cs' :=
    fun t all => ⟨_, all, State.unlessFault_of_not_legal h all t⟩
  rw [s.displayOp_eq] at e
  by_cases load : s.dph = dphLoad
  · rw [if_pos load] at e
    cases src : s.inputs.srcSel <;> rw [src] at e
    case false => cases e; exact records _ (List.subset_append_left ..)
    case true => cases e; exact records _ (List.Subset.refl _)
  rw [if_neg load] at e
  by_cases shift : s.dph = dphShift
  · rw [if_pos shift] at e
    cases e
    exact records _ (List.subset_append_right ..)
  rw [if_neg shift] at e
  by_cases settle : s.dph = dphSettle
  · rw [if_pos settle] at e
    cases e
    exact records _ (List.Subset.refl _)
  · rw [if_neg settle] at e
    cases e
    exact ⟨_, List.subset_cons_self .., rfl⟩

/-- The display half of an edge checks the engine's codes at a TRESET too (log 5). -/
theorem State.displayUpdate_of_not_legal {s d : State} (h : ¬s.EngineLegal) (e : s.displayUpdate = .next d) :
    ∃ cs, engineFaults s ⊆ cs ∧ d = s.raise cs := by
  rcases State.displayUpdate_cases e with ⟨-, -, -, rfl⟩ | ⟨-, op⟩
  · exact ⟨_, List.subset_append_left .., State.unlessFault_of_not_legal h (List.subset_append_left ..) _⟩
  · exact exec_displayOp_of_not_legal h op

/-- At such an edge, whatever TIME does, only the record and the edge number move, and every condition met is recorded. -/
theorem clockEdge_of_not_legal {u : State} (h : ¬u.EngineLegal) (hr : u.inputs.rstN = true) :
    ∃ cs, engineFaults u ⊆ cs ∧ clockEdge u = .next (u.raise cs).countEdge := by
  rcases clockEdge_cases u with ⟨por, -⟩ | ⟨-, t, d, -, hd, e⟩
  · rw [hr] at por
    cases por
  obtain ⟨cs, all, rfl⟩ := State.displayUpdate_of_not_legal h hd
  have allJoined : engineFaults u ⊆ newCauses u t ++ newCauses u (u.raise cs) := fun c hc => by
    rw [newCauses_raise]
    exact List.mem_append_right _ ((mem_orderByCode c cs).mpr (all hc))
  exact ⟨_, allJoined, by rw [e, State.joinUnits, State.unlessFault_of_not_legal h allJoined]⟩

/-- After a record the model takes no further step (R220). -/
theorem step_of_recorded {s : State} {r : FaultRecord} {l : List FaultRecord} (hv : s.cfg.Valid) (hf : s.faults = r :: l) :
    step s = .fault (.recorded r) := by
  rw [step, State.stepChecked, if_pos hv, hf]

/-- Settles O43: the records are those of `orderByCode` over a list that holds every engine fault. -/
theorem unreachableCodesAreRecorded : Obligations.UnreachableCodesAreRecorded := by
  intro s x rest hv illegal hf hs hr
  obtain ⟨cs, all, edge⟩ := clockEdge_of_not_legal (u := s.sample x rest) illegal hr
  have recorded : ∀ c ∈ engineFaults s, ⟨c, s.edge⟩ ∈ (orderByCode cs).map fun c => (⟨c, s.edge⟩ : FaultRecord) :=
    fun c hc => List.mem_map_of_mem ((mem_orderByCode c cs).mpr (all hc))
  refine ⟨(orderByCode cs).map fun c => ⟨c, s.edge⟩, ((s.sample x rest).raise cs).countEdge,
    (step_of_edge hv hf hs).trans edge, ?sameState, fun dph => ?dph, fun sph => ?sph, fun pcnt => ?pcnt, fun scnt => ?scnt,
    fun k rdig => ?rdig, fun sph sbit => ?sbit, List.pairwise_map.mpr (orderByCode_sorted cs), ?stop⟩
  case sameState =>
    simp [State.countEdge, State.raise, State.sample, hf]
  case dph => exact recorded _ (mem_engineFaults.mpr (.inl ⟨dph, by rw [dph]⟩))
  case sph => exact recorded _ (mem_engineFaults.mpr (.inr (.inl ⟨BitVec.lt_def.mpr sph, rfl⟩)))
  case pcnt => exact recorded _ (mem_engineFaults.mpr (.inr (.inr (.inl ⟨pcnt, rfl⟩))))
  case scnt => exact recorded _ (mem_engineFaults.mpr (.inr (.inr (.inr (.inl ⟨scnt, rfl⟩)))))
  case rdig => exact recorded _ (mem_engineFaults.mpr (.inr (.inr (.inr (.inr (.inl ⟨⟨k, rdig⟩, rfl⟩))))))
  case sbit =>
    have ends : s.sph = sphLatchLo ∨ s.sph = sphLatchHi := sph.imp BitVec.eq_of_toNat_eq BitVec.eq_of_toNat_eq
    exact recorded _ (mem_engineFaults.mpr (.inr (.inr (.inr (.inr (.inr ⟨⟨ends, sbit⟩, rfl⟩))))))
  case stop =>
    obtain ⟨c, met⟩ := List.exists_mem_of_ne_nil _ (engineFaults_ne_nil illegal)
    obtain ⟨r, l, hrl⟩ := List.exists_cons_of_ne_nil (List.ne_nil_of_mem (recorded c met))
    exact ⟨r, step_of_recorded (l := l) hv (by rw [← hrl]; simp [hf])⟩

/-! ### Counter widths -/

theorem lt_two_pow_counterWidth {k n : Nat} (h : k < n) : k < 2 ^ counterWidth n := by
  unfold counterWidth
  split
  · omega
  · calc k ≤ n - 1 := by omega
      _ < 2 ^ (Nat.log2 (n - 1) + 1) := Nat.lt_log2_self

/-- Settles O47. -/
theorem countersFitTheirWidths : Obligations.CountersFitTheirWidths :=
  fun _ ⟨_, _, pcnt, scnt, _⟩ => ⟨lt_two_pow_counterWidth pcnt, lt_two_pow_counterWidth scnt⟩

/-! ### Reset values -/

/-- Settles O37: the receiver sees lines that only go low, and so nothing (R134). -/
theorem porSetsEveryRegister : Obligations.PorSetsEveryRegister := by
  intro s a b
  have noRise : s.recv.observe s.sclk s.slatch false false false = s.recv := Receiver.observe_no_rise _ nofun nofun
  simp only [exec, execPor, State.blockReset, State.driveLines, noRise]

theorem State.reset_legal : State.reset.Legal := ⟨by decide, by decide, by decide⟩

/-- Settles O39. -/
theorem launchStateIsLegal : Obligations.LaunchStateIsLegal :=
  ⟨State.reset_legal, by decide, rfl, porSetsEveryRegister State.reset false false⟩

end Sys2Proof.Machine
end

section
/-! PROOFS. What the block holds and in what order it gives it out: the tables and parameters that no step writes (R54), the time
as a capture reads it (R60), and the bit order of a frame's two bytes (R55, R56). -/
namespace Sys2Proof.Machine

/-! ### The build-time configuration -/

theorem clockEdge_keeps_cfg {u t : State} (h : clockEdge u = .next t) : t.cfg = u.cfg :=
  clockEdge_keeps (fun v => v.cfg = u.cfg)
    (hexec := fun _ _ _ hv e => (exec_environment e).1.trans hv)
    (hload := fun v hv => (EngineFrame.loadTime v []).cfg.trans hv)
    (hjoin := fun _ _ _ hd => hd) (hraise := fun _ _ hv => hv) (hcount := fun _ hv => hv) rfl h

/-- Settles O45: the step is a clock edge or one operation, and taking the item off the stimulus leaves the configuration. -/
theorem buildTimeTablesNeverChange : Obligations.BuildTimeTablesNeverChange := by
  intro s t h
  obtain ⟨-, -, run⟩ := step_next h
  rcases State.runNext_cases run with ⟨x, rest, edge⟩ | ⟨i, rest, op⟩
  · exact clockEdge_keeps_cfg (u := s.sample x rest) edge
  · exact (exec_environment op).1

/-! ### The captured time -/

/-- `MIN * 100 + SEC` never leaves 16 bits, whatever the two registers hold (R153). -/
theorem State.timeValue_toNat (s : State) : s.timeValue.toNat = s.min.toNat * 100 + s.sec.toNat := by
  have hmin := s.min.isLt
  have hsec := s.sec.isLt
  simp only [State.timeValue, BitVec.toNat_add, BitVec.toNat_mul, BitVec.toNat_setWidth, BitVec.toNat_ofNat]
  omega

/-- The four digits with the powers of ten written out (R150). -/
theorem digits_eq (v : BitVec 16) : digits v = #v[BitVec.ofNat 4 (v.toNat / 1000 % 10), BitVec.ofNat 4 (v.toNat / 100 % 10),
    BitVec.ofNat 4 (v.toNat / 10 % 10), BitVec.ofNat 4 (v.toNat % 10)] := by
  have units : digit v 3 = BitVec.ofNat 4 (v.toNat % 10) := congrArg (fun k => BitVec.ofNat 4 (k % 10)) (Nat.div_one v.toNat)
  rw [digits, units]
  rfl

/-- With the time in range its render value shows two digits of minutes, then two of seconds (R150, R153). -/
theorem State.TimeInRange.digits_timeValue {s : State} (h : s.TimeInRange) :
    digits s.timeValue = #v[BitVec.ofNat 4 (s.min.toNat / 10), BitVec.ofNat 4 (s.min.toNat % 10),
      BitVec.ofNat 4 (s.sec.toNat / 10), BitVec.ofNat 4 (s.sec.toNat % 10)] := by
  obtain ⟨hsec, hmin⟩ := h
  have thousands : (s.min.toNat * 100 + s.sec.toNat) / 1000 % 10 = s.min.toNat / 10 := by omega
  have hundreds : (s.min.toNat * 100 + s.sec.toNat) / 100 % 10 = s.min.toNat % 10 := by omega
  have tens : (s.min.toNat * 100 + s.sec.toNat) / 10 % 10 = s.sec.toNat / 10 := by omega
  have units : (s.min.toNat * 100 + s.sec.toNat) % 10 = s.sec.toNat % 10 := by omega
  rw [digits_eq, s.timeValue_toNat, thousands, hundreds, tens, units]

/-- TIME's half of an edge with TICK alone, the time in range (R80, R190). -/
theorem State.TimeInRange.exec_timeOp_of_tick {s : State} (h : s.TimeInRange) (hr : s.inputs.rstN = true)
    (hx : s.inputs.treset = false) (hk : s.inputs.tick = true) :
    exec s.timeOp s = .next (s.setTime (nextSec s.sec) (nextMin s.sec s.min)) := by
  have op : s.timeOp = .tick := by simp [s.timeOp_eq hr, hx, hk]
  simp only [op, exec, execTick, (timeFaults_eq_nil s).mpr h, State.unlessFault_nil]

/-- The display engine's half of a LOAD edge from legal codes that reads the time, the time in range (R77, R153). -/
theorem State.TimeInRange.exec_displayOp_of_loadTime {s : State} (h : s.TimeInRange) (hl : s.EngineLegal)
    (hd : s.dph = dphLoad) (hs : s.inputs.srcSel = false) :
    exec s.displayOp s = .next (s.capture (digits s.timeValue) true timeDpPos) := by
  have op : s.displayOp = .loadTime := by simp [s.displayOp_eq, hd, hs]
  simp only [op, exec, execLoadTime, State.loadTime, (engineFaults_eq_nil s).mpr hl, (timeFaults_eq_nil s).mpr h,
    List.append_nil, State.unlessFault_nil]

/-- Settles O51: both halves of the edge read the sampled state `u`, whose time is the one before the tick (R10). -/
theorem loadReadsTheTimeBeforeTheTick : Obligations.LoadReadsTheTimeBeforeTheTick := by
  rintro s x rest ⟨valid, time, engine⟩ hf load hs hr hx hk src
  let u := s.sample x rest
  have inRange : u.TimeInRange := time
  have tick := inRange.exec_timeOp_of_tick hr hx hk
  have capture := inRange.exec_displayOp_of_loadTime engine load src
  have edge := clockEdge_of_quiet hr tick capture rfl rfl
  exact ⟨_, (step_of_edge valid hf hs).trans edge, inRange.digits_timeValue, nextTime_spec inRange⟩

/-! ### The bit order of a frame -/

/-- Driving the clock and the latch with what they hold makes no rise, so the receiver sees nothing (R134). -/
theorem State.putBit_eq (s : State) (b : Bool) : s.putBit b = { s with sdata := b } := by
  simp only [State.putBit, State.driveLines, Receiver.observe_no_rise s.recv id id]

/-- The n-th bit of a frame word from its most significant end (R55, R56). -/
theorem getLsbD_append_msbFirst (seg sel : Byte) (n : BitVec 4) :
    (seg ++ sel).getLsbD (15 - n.toNat) =
      if n.toNat < 8 then seg.getLsbD (7 - n.toNat) else sel.getLsbD (15 - n.toNat) := by
  have hn := n.isLt
  rw [BitVec.getLsbD_append]
  by_cases first : n.toNat < 8
  · rw [if_neg (by omega), if_pos first, show 15 - n.toNat - 8 = 7 - n.toNat by omega]
  · rw [if_pos (by omega), if_neg first]

/-- Settles O11. -/
theorem sdataBitSendsMostSignificantFirst : Obligations.SdataBitSendsMostSignificantFirst := by
  intro s n seg sel word
  have sent : s.sdataBit n = s.putBit ((seg ++ sel).getLsbD (15 - n.toNat)) := by simp only [State.sdataBit, word]
  rw [exec, execSdataBit, sent, State.putBit_eq, getLsbD_append_msbFirst]

end Sys2Proof.Machine
end

section
/-! PROOFS. Decoding and encoding (30_encoding.md): the selector tables (R77 to R80) and the operation word in both directions
(log 1). -/
namespace Sys2Proof

/-! ### The selector tables -/

/-- Settles O1: each selector is a table of at most 128 codes. -/
theorem selectorRowsReadAsTheTables : Obligations.SelectorRowsReadAsTheTables :=
  ⟨by decide, by decide, by decide, by decide⟩

/-- Settles O2. -/
theorem sampleWordsDecode : Obligations.SampleWordsDecode := ⟨rfl, rfl, rfl, rfl, rfl, rfl, rfl⟩

/-! ### An operation and its word -/

/-- `i` is well formed, and `w` is the word that it encodes to and that decodes to it. -/
abbrev Instr.HasWord (i : Instr) (w : OpWord) : Prop := i.wf = true ∧ encode i = w ∧ decode w = .ok i

theorem Instr.HasWord.decode_encode {i : Instr} {w : OpWord} (h : i.HasWord w) : decode (encode i) = .ok i := by
  obtain ⟨-, rfl, decoded⟩ := h
  exact decoded

theorem decode_append (tag : BitVec 4) (p : BitVec 28) : decode (tag ++ p) = decodePayload tag p := by
  rw [decode, wordTag_append, wordPayload_append]

theorem extractLsb'_one {n : Nat} (p : BitVec n) (k : Nat) : p.extractLsb' k 1 = BitVec.ofBool (p.getLsbD k) := by
  apply BitVec.eq_of_getLsbD_eq
  intro j hj
  obtain rfl : j = 0 := by omega
  simp

theorem getLsbD_of_extractLsb'_one {n k : Nat} {p : BitVec n} {b : Bool} (h : p.extractLsb' k 1 = BitVec.ofBool b) :
    p.getLsbD k = b :=
  BitVec.ofBool_eq_iff_eq.mp ((extractLsb'_one p k).symm.trans h)

/-- A code with zeros above it is read back whole, and the zeros pass as unused. -/
theorem whenUnused_zero_append {n k : Nat} (tag : BitVec 4) (c : BitVec k) (select : BitVec k → Instr) :
    whenUnused tag ((0#n ++ c).extractLsb' k n == 0#n) (select ((0#n ++ c).extractLsb' 0 k)) = .ok (select c) := by
  rw [BitVec.extractLsb'_append_eq_left, BitVec.extractLsb'_append_eq_right, beq_self_eq_true]
  rfl

/-- The row that a digit selects keeps its four bits and the point (R79). -/
theorem decodeDig_hasWord (d : BitVec 4) (dp : Bool) :
    (decodeDig d dp).HasWord (1#4 ++ (0#19 ++ BitVec.ofBool dp ++ 0#4 ++ d)) := by
  have row : ∀ (d : BitVec 4) (dp : Bool), (decodeDig d dp).wf = true ∧
      encode (decodeDig d dp) = 1#4 ++ (0#19 ++ BitVec.ofBool dp ++ 0#4 ++ d) := by decide
  obtain ⟨wf, encoded⟩ := row d dp
  refine ⟨wf, encoded, ?decoded⟩
  let p : BitVec 28 := 0#19 ++ BitVec.ofBool dp ++ 0#4 ++ d
  have low : p.extractLsb' 4 4 = 0#4 :=
    (BitVec.extractLsb'_append_eq_of_le (by decide)).trans BitVec.extractLsb'_append_eq_right
  have aboveZeros {start len : Nat} (h : 8 ≤ start) :
      p.extractLsb' start len = (0#19 ++ BitVec.ofBool dp).extractLsb' (start - 4 - 4) len :=
    (BitVec.extractLsb'_append_eq_of_le (by omega)).trans (BitVec.extractLsb'_append_eq_of_le (by omega))
  have high : p.extractLsb' 9 19 = 0#19 := (aboveZeros (by decide)).trans BitVec.extractLsb'_append_eq_left
  have point : p.getLsbD 8 = dp :=
    getLsbD_of_extractLsb'_one ((aboveZeros (by decide)).trans BitVec.extractLsb'_append_eq_right)
  have digit : p.extractLsb' 0 4 = d := BitVec.extractLsb'_append_eq_right
  calc decode (1#4 ++ p)
    _ = whenUnused 1#4 (p.extractLsb' 4 4 == 0#4 && p.extractLsb' 9 19 == 0#19)
        (decodeDig (p.extractLsb' 0 4) (p.getLsbD 8)) := decode_append 1#4 p
    _ = .ok (decodeDig d dp) := by rw [low, high, digit, point]; rfl

/-- The row that a serializer code selects keeps its seven bits (R78). -/
theorem decodeSact_hasWord (c : BitVec 7) : (decodeSact c).HasWord (2#4 ++ (0#21 ++ c)) := by
  have row : ∀ c : BitVec 7, (decodeSact c).wf = true ∧ encode (decodeSact c) = 2#4 ++ (0#21 ++ c) := by decide
  obtain ⟨wf, encoded⟩ := row c
  exact ⟨wf, encoded, (decode_append ..).trans (whenUnused_zero_append (n := 21) 2#4 c decodeSact)⟩

/-- The row that a phase code selects keeps its three bits (R77). -/
theorem decodeDsel_hasWord (c : BitVec 3) : (decodeDsel c).HasWord (3#4 ++ (0#25 ++ c)) := by
  have row : ∀ c : BitVec 3, (decodeDsel c).wf = true ∧ encode (decodeDsel c) = 3#4 ++ (0#25 ++ c) := by decide
  obtain ⟨wf, encoded⟩ := row c
  exact ⟨wf, encoded, (decode_append ..).trans (whenUnused_zero_append (n := 25) 3#4 c decodeDsel)⟩

/-- The row that a control code selects keeps its three bits (R80). -/
theorem decodeCtl_hasWord (c : BitVec 3) : (decodeCtl c).HasWord (4#4 ++ (0#25 ++ c)) := by
  have row : ∀ c : BitVec 3, (decodeCtl c).wf = true ∧ encode (decodeCtl c) = 4#4 ++ (0#25 ++ c) := by decide
  obtain ⟨wf, encoded⟩ := row c
  exact ⟨wf, encoded, (decode_append ..).trans (whenUnused_zero_append (n := 25) 4#4 c decodeCtl)⟩

/-- The two bytes of a frame stand one above the other (R128). -/
theorem writeFrame_hasWord (seg sel : Byte) : (Instr.writeFrame seg sel).HasWord (5#4 ++ (0#12 ++ seg ++ sel)) := by
  refine ⟨rfl, rfl, ?decoded⟩
  let p : BitVec 28 := 0#12 ++ seg ++ sel
  have unused : p.extractLsb' 16 12 = 0#12 :=
    (BitVec.extractLsb'_append_eq_of_le (by decide)).trans BitVec.extractLsb'_append_eq_left
  have segField : p.extractLsb' 8 8 = seg :=
    (BitVec.extractLsb'_append_eq_of_le (by decide)).trans BitVec.extractLsb'_append_eq_right
  have selField : p.extractLsb' 0 8 = sel := BitVec.extractLsb'_append_eq_right
  calc decode (5#4 ++ p)
    _ = whenUnused 5#4 (p.extractLsb' 16 12 == 0#12) (.writeFrame (p.extractLsb' 8 8) (p.extractLsb' 0 8)) :=
      decode_append 5#4 p
    _ = .ok (.writeFrame seg sel) := by rw [unused, segField, selField]; rfl

/-- The value, the enable and the position of a RENDER stand one above the other (R158). -/
theorem render_hasWord (v : BitVec 16) (en : Bool) (pos : BitVec 2) :
    (Instr.render v en pos).HasWord (6#4 ++ (0#9 ++ pos ++ BitVec.ofBool en ++ v)) := by
  refine ⟨rfl, rfl, ?decoded⟩
  let p : BitVec 28 := 0#9 ++ pos ++ BitVec.ofBool en ++ v
  have aboveValue {start len : Nat} (h : 16 ≤ start) :
      p.extractLsb' start len = (0#9 ++ pos ++ BitVec.ofBool en).extractLsb' (start - 16) len :=
    BitVec.extractLsb'_append_eq_of_le h
  have unused : p.extractLsb' 19 9 = 0#9 :=
    (aboveValue (by decide)).trans ((BitVec.extractLsb'_append_eq_of_le (by decide)).trans BitVec.extractLsb'_append_eq_left)
  have posField : p.extractLsb' 17 2 = pos :=
    (aboveValue (by decide)).trans ((BitVec.extractLsb'_append_eq_of_le (by decide)).trans BitVec.extractLsb'_append_eq_right)
  have enField : p.getLsbD 16 = en :=
    getLsbD_of_extractLsb'_one ((aboveValue (by decide)).trans BitVec.extractLsb'_append_eq_right)
  have valueField : p.extractLsb' 0 16 = v := BitVec.extractLsb'_append_eq_right
  calc decode (6#4 ++ p)
    _ = whenUnused 6#4 (p.extractLsb' 19 9 == 0#9) (.render (p.extractLsb' 0 16) (p.getLsbD 16) (p.extractLsb' 17 2)) :=
      decode_append 6#4 p
    _ = .ok (.render v en pos) := by rw [unused, posField, enField, valueField]; rfl

/-- Settles O3: a well-formed operation is the row that its own code selects, and every row has its word. -/
theorem decodeUndoesEncode : Obligations.DecodeUndoesEncode := by
  intro i wf
  obtain ⟨⟨loadTime, loadExt, dsel⟩, sact, dig, thold, tick, ctl⟩ := selectorRowsReadAsTheTables
  have ofDig {i : Instr} {d : BitVec 4} {dp : Bool} (row : decodeDig d dp = i) : decode (encode i) = .ok i :=
    row ▸ (decodeDig_hasWord d dp).decode_encode
  have ofSact {i : Instr} {c : BitVec 7} (row : decodeSact c = i) : decode (encode i) = .ok i :=
    row ▸ (decodeSact_hasWord c).decode_encode
  have ofDsel {i : Instr} {c : BitVec 3} (row : decodeDsel c = i) : decode (encode i) = .ok i :=
    row ▸ (decodeDsel_hasWord c).decode_encode
  have ofCtl {i : Instr} {c : BitVec 3} (row : decodeCtl c = i) : decode (encode i) = .ok i :=
    row ▸ (decodeCtl_hasWord c).decode_encode
  cases i with
  | encode0to7 d dp =>
    obtain ⟨row, -⟩ := dig d dp
    exact ofDig (row (of_decide_eq_true wf))
  | encode8to9 d dp =>
    obtain ⟨-, row, -⟩ := dig d dp
    exact ofDig (row (by simpa [Instr.wf] using wf))
  | encIllegal10to11 d dp =>
    obtain ⟨-, -, row, -⟩ := dig d dp
    exact ofDig (row (by simpa [Instr.wf] using wf))
  | encIllegal12to15 d dp =>
    obtain ⟨-, -, -, row⟩ := dig d dp
    exact ofDig (row (of_decide_eq_true wf))
  | latchLo n =>
    obtain ⟨row, -⟩ := sact n
    exact ofSact row
  | sdataBit n =>
    obtain ⟨-, row, -⟩ := sact n
    exact ofSact row
  | sclkHi n =>
    obtain ⟨-, -, row, -⟩ := sact n
    exact ofSact row
  | sclkLo n =>
    obtain ⟨-, -, -, row, -⟩ := sact n
    exact ofSact row
  | latchHi n =>
    obtain ⟨-, -, -, -, row, -⟩ := sact n
    exact ofSact row
  | sactRsvd101 n =>
    obtain ⟨-, -, -, -, -, row, -⟩ := sact n
    exact ofSact row
  | sactRsvd11x sph n =>
    obtain ⟨-, -, -, -, -, -, row110, row111⟩ := sact n
    have codes : ∀ p : BitVec 3, 6 ≤ p.toNat → p = 0b110#3 ∨ p = 0b111#3 := by decide
    obtain rfl | rfl := codes sph (of_decide_eq_true wf)
    · exact ofSact row110
    · exact ofSact row111
  | loadTime => exact ofDsel loadTime
  | loadExt => exact ofDsel loadExt
  | shift b =>
    obtain ⟨row, -⟩ := dsel b
    exact ofDsel row
  | settle b =>
    obtain ⟨-, row, -⟩ := dsel b
    exact ofDsel row
  | dphRsvd b =>
    obtain ⟨-, -, row⟩ := dsel b
    exact ofDsel row
  | por a b =>
    obtain ⟨-, row⟩ := ctl b
    exact ofCtl (row a)
  | treset b =>
    obtain ⟨row, -⟩ := ctl b
    exact ofCtl row
  | tick => exact ofCtl tick
  | thold => exact ofCtl thold
  | writeFrame seg sel => exact (writeFrame_hasWord seg sel).decode_encode
  | render v en pos => exact (render_hasWord v en pos).decode_encode
  | snapshot => rfl
  | clockRender => rfl
  | extRender => rfl

/-! ### Encoding a decoded operation -/

/-- A vector whose high part is zero is its low part with zeros above. -/
theorem zero_append_extractLsb' {n k : Nat} {p : BitVec (n + k)} (high : p.extractLsb' k n = 0#n) :
    0#n ++ p.extractLsb' 0 k = p := by
  rw [← high, BitVec.extractLsb'_append_extractLsb'_eq_extractLsb' (Nat.zero_add k).symm, BitVec.extractLsb'_eq_self]

/-- The payload of a digit, field by field (log 1). -/
theorem append_digFields (p : BitVec 28) :
    p.extractLsb' 9 19 ++ BitVec.ofBool (p.getLsbD 8) ++ p.extractLsb' 4 4 ++ p.extractLsb' 0 4 = p := by
  rw [← extractLsb'_one,
    BitVec.extractLsb'_append_extractLsb'_eq_extractLsb' (rfl : 9 = 8 + 1),
    BitVec.extractLsb'_append_extractLsb'_eq_extractLsb' (rfl : 8 = 4 + 4),
    BitVec.extractLsb'_append_extractLsb'_eq_extractLsb' (rfl : 4 = 0 + 4)]
  exact BitVec.extractLsb'_eq_self

/-- The payload of a WRITE_FRAME, field by field (log 1). -/
theorem append_writeFrameFields (p : BitVec 28) : p.extractLsb' 16 12 ++ p.extractLsb' 8 8 ++ p.extractLsb' 0 8 = p := by
  rw [BitVec.extractLsb'_append_extractLsb'_eq_extractLsb' (rfl : 16 = 8 + 8),
    BitVec.extractLsb'_append_extractLsb'_eq_extractLsb' (rfl : 8 = 0 + 8)]
  exact BitVec.extractLsb'_eq_self

/-- The payload of a RENDER, field by field (log 1). -/
theorem append_renderFields (p : BitVec 28) :
    p.extractLsb' 19 9 ++ p.extractLsb' 17 2 ++ BitVec.ofBool (p.getLsbD 16) ++ p.extractLsb' 0 16 = p := by
  rw [← extractLsb'_one,
    BitVec.extractLsb'_append_extractLsb'_eq_extractLsb' (rfl : 19 = 17 + 2),
    BitVec.extractLsb'_append_extractLsb'_eq_extractLsb' (rfl : 17 = 16 + 1),
    BitVec.extractLsb'_append_extractLsb'_eq_extractLsb' (rfl : 16 = 0 + 16)]
  exact BitVec.extractLsb'_eq_self

/-- A word that decodes is a bare code of one of three selectors, or it is the word of its operation. -/
theorem decodePayload_cases {tag : BitVec 4} {p : BitVec 28} {i : Instr} (h : decodePayload tag p = .ok i) :
    (tag = 0#4 ∧ decodeBare (p.extractLsb' 0 8) = .ok i) ∨ i.HasWord (tag ++ p) := by
  rcases decodePayload_ok h with bare | ⟨rfl, low, high, rfl⟩ | ⟨rfl, high, rfl⟩ | ⟨rfl, high, rfl⟩ | ⟨rfl, high, rfl⟩ |
    ⟨rfl, high, rfl⟩ | ⟨rfl, high, rfl⟩ | ⟨rfl, rfl, rfl⟩ | ⟨rfl, rfl, rfl⟩ | ⟨rfl, rfl, rfl⟩
  · exact .inl bare
  · have word := decodeDig_hasWord (p.extractLsb' 0 4) (p.getLsbD 8)
    rw [← high, ← low, append_digFields] at word
    exact .inr word
  · have word := decodeSact_hasWord (p.extractLsb' 0 7)
    rw [zero_append_extractLsb' (n := 21) high] at word
    exact .inr word
  · have word := decodeDsel_hasWord (p.extractLsb' 0 3)
    rw [zero_append_extractLsb' (n := 25) high] at word
    exact .inr word
  · have word := decodeCtl_hasWord (p.extractLsb' 0 3)
    rw [zero_append_extractLsb' (n := 25) high] at word
    exact .inr word
  · have word := writeFrame_hasWord (p.extractLsb' 8 8) (p.extractLsb' 0 8)
    rw [← high, append_writeFrameFields] at word
    exact .inr word
  · have word := render_hasWord (p.extractLsb' 0 16) (p.getLsbD 16) (p.extractLsb' 17 2)
    rw [← high, append_renderFields] at word
    exact .inr word
  all_goals exact .inr ⟨rfl, rfl, rfl⟩

/-- Settles O4. -/
theorem encodeUndoesDecode : Obligations.EncodeUndoesDecode := by
  intro w i decoded tagged
  rcases decodePayload_cases decoded with ⟨bare, -⟩ | ⟨-, encoded, -⟩
  · exact absurd bare tagged
  · exact encoded.trans (tag_append_payload w)

/-- Settles O5: a bare code too selects a row of a selector. -/
theorem decodedOperationsAreWellFormed : Obligations.DecodedOperationsAreWellFormed := by
  intro w i decoded
  rcases decodePayload_cases decoded with ⟨-, bare⟩ | ⟨wf, -⟩
  · rcases decodeBare_ok bare with rfl | rfl | rfl
    · exact (decodeDsel_hasWord _).1
    · exact (decodeDig_hasWord _ _).1
    · exact (decodeSact_hasWord _).1
  · exact wf

end Sys2Proof
end

section
/-! PROOFS. The pseudo-operations as the RENDER that they expand to (R84). -/
namespace Sys2Proof.Machine

theorem pulses_faults (w : Frame) (ns : List Nat) (s : State) :
    (ns.foldl (fun t n => t.pulseBit (w.getLsbD (15 - n))) s).faults = s.faults := by
  induction ns generalizing s with
  | nil => rfl
  | cons n ns ih => exact ih _

@[simp] theorem State.sendFrame_faults (s : State) (w : Frame) : (s.sendFrame w).faults = s.faults := by
  simp only [State.sendFrame, State.frameLines, State.latchHi, State.latchLo, State.endFrame_faults, State.setAction_faults,
    State.driveLines_faults, pulses_faults]

/-- In a legal state every slot has a frame word to send (R102: the illegal digit is unreachable). -/
theorem State.EngineLegal.sendSlot_faults {s : State} (h : s.EngineLegal) (i : BitVec 2) :
    (s.sendSlot i).faults = s.faults := by
  obtain ⟨w, word⟩ := (h.setDigit i).curWord
  simp only [State.sendSlot, word, State.sendFrame_faults, State.setDigit_faults]

/-- From legal codes a RENDER ends in LOAD and records nothing, whatever its operands (R158). -/
theorem State.EngineLegal.renderValue_quiet {s : State} (h : s.EngineLegal) (v : BitVec 16) (en : Bool) (pos : BitVec 2) :
    (s.renderValue v en pos).dph = dphLoad ∧ (s.renderValue v en pos).faults = s.faults := by
  have captured := h.capture v en pos
  have slot0 := captured.sendSlot 0#2
  have slot1 := slot0.sendSlot 1#2
  have slot2 := slot1.sendSlot 2#2
  refine ⟨rfl, ?faults⟩
  rw [State.renderValue, State.sendCycle, State.endCycle_faults, slot2.sendSlot_faults, slot1.sendSlot_faults,
    slot0.sendSlot_faults, captured.sendSlot_faults, State.capture_faults]

/-- From legal codes RENDER answers the state of `renderValue` (R158). -/
theorem State.EngineLegal.exec_render {s : State} (h : s.EngineLegal) (v : BitVec 16) (en : Bool) (pos : BitVec 2) :
    exec (.render v en pos) s = .next (s.renderValue v en pos) := by
  simp only [exec, execRender, (engineFaults_eq_nil s).mpr h, State.unlessFault_nil]

/-- The time as the operand of RENDER (R84, R153). -/
theorem State.timeValue_eq_ofNat (s : State) : s.timeValue = BitVec.ofNat 16 (s.min.toNat * 100 + s.sec.toNat) := by
  rw [← s.timeValue_toNat, BitVec.ofNat_toNat, BitVec.setWidth_eq]

/-- Settles O24: from legal codes either pseudo-operation answers the state of `renderValue` at its operands. -/
theorem pseudoOperationsExpandToRender : Obligations.PseudoOperationsExpandToRender := by
  intro s h
  constructor
  · intro inRange
    obtain ⟨load, quiet⟩ := h.renderValue_quiet s.timeValue true timeDpPos
    refine ⟨_, ?clock, s.timeValue_eq_ofNat ▸ h.exec_render s.timeValue true timeDpPos, load, quiet⟩
    simp only [exec, execClockRender, (engineFaults_eq_nil s).mpr h, (timeFaults_eq_nil s).mpr inRange, List.append_nil,
      State.unlessFault_nil]
  · obtain ⟨load, quiet⟩ := h.renderValue_quiet s.inputs.extValue s.inputs.extDpEn s.inputs.extDpPos
    exact ⟨_, h.exec_render .., h.exec_render .., load, quiet⟩

end Sys2Proof.Machine
end

section
/-! PROOFS. The segment encoder (40_segment_encoder.md): the masks that ENCODE hands back (R100, R101, R104) and the record of an
illegal digit (R102). -/
namespace Sys2Proof.Machine

/-! ### A digit in range -/

/-- A digit in range has its mask handed back, and nothing else changes (R72, R100). -/
theorem State.encodeDigit_of_lt (s : State) {d : BitVec 4} (dp : Bool) (h : d.toNat < 10) :
    s.encodeDigit d dp = s.setResult (.seg (if dp then s.cfg.withPoint s.cfg.segTable[d.toNat] else s.cfg.segTable[d.toNat])) := by
  rw [State.encodeDigit, enc_of_lt s.cfg dp h]

/-- Settles O6: both ENCODE rows are `encodeDigit`, whose mask needs only the digit in range. -/
theorem encodeLooksUpTheTable : Obligations.EncodeLooksUpTheTable := by
  intro s d dp h m p t
  have handsBack : s.encodeDigit d dp = t := s.encodeDigit_of_lt dp h
  exact ⟨fun _ => congrArg Host.Outcome.next handsBack, fun _ => congrArg Host.Outcome.next handsBack,
    fun seven => Config.withPoint_of_seven seven m⟩

/-- For a digit in range `DIG` selects an ENCODE row (R79). -/
theorem exec_decodeDig_of_lt (s : State) {d : BitVec 4} (dp : Bool) (h : d.toNat < 10) :
    exec (decodeDig d dp) s = .next (s.encodeDigit d dp) := by
  obtain ⟨-, -, dig, -⟩ := selectorRowsReadAsTheTables
  obtain ⟨low, high, -, -⟩ := dig d dp
  by_cases lt8 : d.toNat < 8
  · rw [low lt8]
    rfl
  · rw [high (by omega)]
    rfl

/-- The point column of the default table (R104). -/
theorem segTableDefault_withoutBit7 (d : Fin 10) : segTableDefault[d] &&& 0x7F#8 =
    (#v[0x40#8, 0x79#8, 0x24#8, 0x30#8, 0x19#8, 0x12#8, 0x02#8, 0x78#8, 0x00#8, 0x10#8] : Vector Byte 10)[d] := by
  revert d
  decide

/-- Settles O7: the two columns are the table itself and the table with bit 7 cleared. -/
theorem encodeDefaultTableValues : Obligations.EncodeDefaultTableValues := by
  intro s d seven
  have hd : (BitVec.ofNat 4 d.val).toNat = d.val := Nat.mod_eq_of_lt (by omega)
  have column (dp : Bool) : exec (decodeDig (BitVec.ofNat 4 d.val) dp) s =
      .next (s.setResult (.seg (if dp then s.cfg.segTable[d] &&& 0x7F#8 else s.cfg.segTable[d]))) := by
    have inRange : (BitVec.ofNat 4 d.val).toNat < 10 := by omega
    rw [exec_decodeDig_of_lt s dp inRange, s.encodeDigit_of_lt dp inRange, Config.withPoint_of_seven seven]
    simp only [hd, Fin.getElem_fin]
  refine ⟨fun byDefault => ⟨?off, ?on⟩, column true⟩
  case off =>
    rw [column false, byDefault]
    rfl
  case on =>
    rw [column true, byDefault, segTableDefault_withoutBit7]
    rfl

/-! ### A digit out of range -/

theorem State.raise_single (s : State) (c : FaultCause) :
    s.raise [c] = { s with faults := s.faults ++ [{ cause := c, edge := s.edge }] } := by
  rw [State.raise, orderByCode_single, List.map_singleton]

/-- Settles O8: both ENC_ILLEGAL rows raise the one cause, and a state with a record is never stepped. -/
theorem illegalDigitIsRecorded : Obligations.IllegalDigitIsRecorded := by
  intro s d dp t
  have recorded : s.raise [.encDigit d] = t := s.raise_single _
  refine ⟨fun _ => congrArg Host.Outcome.next recorded, fun _ => congrArg Host.Outcome.next recorded,
    fun valid => ?stop⟩
  obtain ⟨r, rest, faults⟩ : ∃ r rest, t.faults = r :: rest :=
    List.exists_cons_of_ne_nil (List.append_ne_nil_of_right_ne_nil _ (List.cons_ne_nil _ _))
  exact ⟨r, step_of_recorded valid faults⟩

end Sys2Proof.Machine
end

section
/-! PROOFS. The serializer (41_serial_output.md): its line actions and their order (R120 to R127), a SHIFT edge (R121, R155), a frame
as one operation (R128), and the fifty phases of the clocked frame (R133). -/
namespace Sys2Proof.Machine

/-! ### Line actions -/

/-- A fall of SLATCH does nothing to the receiver (R61, R134). -/
theorem State.latchLo_eq (s : State) : s.latchLo = { s with slatch := false } := by
  have noRise : s.recv.observe s.sclk s.slatch s.sdata s.sclk false = s.recv := Receiver.observe_no_rise _ id nofun
  simp only [State.latchLo, State.driveLines, noRise]

/-- A fall of SCLK does nothing to the receiver (R61, R134). -/
theorem State.sclkLo_eq (s : State) : s.sclkLo = { s with sclk := false } := by
  have noRise : s.recv.observe s.sclk s.slatch s.sdata false s.slatch = s.recv := Receiver.observe_no_rise _ nofun id
  simp only [State.sclkLo, State.driveLines, noRise]

/-- SCLK driven high: a rise shifts SDATA in (R134). -/
theorem Receiver.observe_sclkHi (r : Receiver) (was d l : Bool) : r.observe was l d true l =
    if was then r else { r with sr := r.sr <<< 1 ||| (BitVec.ofBool d).setWidth 16 } := by
  cases was
  case false => rw [Receiver.observe_shift, shiftIn_eq]; rfl
  case true => exact r.observe_no_rise (fun _ => rfl) id

/-- SLATCH driven high: a rise copies the chain to the outputs (R134). -/
theorem Receiver.observe_latchHi (r : Receiver) (was d c : Bool) : r.observe c was d c true =
    if was then r else { r with out := r.sr } := by
  cases was
  case false => exact r.observe_commit d c
  case true => exact r.observe_no_rise id fun _ => rfl

theorem State.sclkHi_eq (s : State) : s.sclkHi = { s with
    sclk := true
    recv := if s.sclk then s.recv
      else { s.recv with sr := s.recv.sr <<< 1 ||| (BitVec.ofBool s.sdata).setWidth 16 } } := by
  simp only [State.sclkHi, State.driveLines, Receiver.observe_sclkHi]

theorem State.latchHi_eq (s : State) : s.latchHi = { s with
    slatch := true, recv := if s.slatch then s.recv else { s.recv with out := s.recv.sr } } := by
  simp only [State.latchHi, State.driveLines, Receiver.observe_latchHi]

/-- Settles O9. -/
theorem latchAndClockActionsDriveOneLine : Obligations.LatchAndClockActionsDriveOneLine :=
  fun s _ => ⟨congrArg Host.Outcome.next s.latchLo_eq, congrArg Host.Outcome.next s.sclkHi_eq,
    congrArg Host.Outcome.next s.sclkLo_eq, congrArg Host.Outcome.next s.latchHi_eq⟩

/-- Settles O12. -/
theorem reservedActionsAreRecorded : Obligations.ReservedActionsAreRecorded :=
  fun s _ => ⟨congrArg Host.Outcome.next (s.raise_single _), fun _ => congrArg Host.Outcome.next (s.raise_single _)⟩

/-- Settles O13: the closed form at its fifty indices. -/
theorem lineActionsFollowTheFrameOrder : Obligations.LineActionsFollowTheFrameOrder :=
  ⟨rfl, rfl, by decide, by decide, rfl⟩

/-- `SACT = {SPH, SBIT}` selects the position's line action, a reserved code included (R78, R121). -/
theorem exec_decodeSact_position (s : State) : exec (decodeSact (s.sph ++ s.sbit)) s = .next s.lineAction := by
  obtain ⟨-, sact, -⟩ := selectorRowsReadAsTheTables
  obtain ⟨latchLo, data, clkHi, clkLo, latchHi, rsvd5, rsvd6, rsvd7⟩ := sact s.sbit
  have codes : ∀ p : BitVec 3, p = 0b000#3 ∨ p = 0b001#3 ∨ p = 0b010#3 ∨ p = 0b011#3 ∨ p = 0b100#3 ∨ p = 0b101#3 ∨
      p = 0b110#3 ∨ p = 0b111#3 := by decide
  unfold State.lineAction
  rcases codes s.sph with e | e | e | e | e | e | e | e <;> rw [e]
  · rw [latchLo]; rfl
  · rw [data]; rfl
  · rw [clkHi]; rfl
  · rw [clkLo]; rfl
  · rw [latchHi]; rfl
  · rw [rsvd5]; rfl
  · rw [rsvd6]; rfl
  · rw [rsvd7]; rfl

theorem State.lineAction_of_latchLo {s : State} (h : s.sph = sphLatchLo) : s.lineAction = s.latchLo := by
  rw [State.lineAction, h]; rfl

theorem State.lineAction_of_data {s : State} (h : s.sph = sphData) : s.lineAction = s.sdataBit s.sbit := by
  rw [State.lineAction, h]; rfl

theorem State.lineAction_of_clkHi {s : State} (h : s.sph = sphClkHi) : s.lineAction = s.sclkHi := by
  rw [State.lineAction, h]; rfl

theorem State.lineAction_of_clkLo {s : State} (h : s.sph = sphClkLo) : s.lineAction = s.sclkLo := by
  rw [State.lineAction, h]; rfl

theorem State.lineAction_of_latchHi {s : State} (h : s.sph = sphLatchHi) : s.lineAction = s.latchHi := by
  rw [State.lineAction, h]; rfl

/-! ### A SHIFT edge -/

/-- The first half of a SHIFT edge: the line action, if its phase begins (R121). -/
def State.performed (s : State) : State := if s.pcnt = 0 then s.lineAction else s

theorem State.serStep_eq (s : State) : s.serStep = s.performed.advance := rfl

theorem State.performed_of_first {s : State} (h : s.pcnt = 0) : s.performed = s.lineAction := if_pos h

theorem State.performed_of_held {s : State} (h : s.pcnt ≠ 0) : s.performed = s := if_neg h

/-- Driving the lines with what they hold changes nothing. -/
theorem State.driveLines_self (s : State) : s.driveLines s.sdata s.sclk s.slatch = s := s.putBit_eq s.sdata

/-- From legal codes a SHIFT edge writes lines only, and a line only at the first edge of an action that names it (R121). -/
theorem State.EngineLegal.performed_eq {s : State} (h : s.EngineLegal) :
    ∃ w, s.curWord = .ok w ∧ s.performed = s.driveLines
      (if s.pcnt = 0 ∧ s.sph = sphData then w.getLsbD (15 - s.sbit.toNat) else s.sdata)
      (if s.pcnt = 0 ∧ s.sph = sphClkHi then true else if s.pcnt = 0 ∧ s.sph = sphClkLo then false else s.sclk)
      (if s.pcnt = 0 ∧ s.sph = sphLatchHi then true else if s.pcnt = 0 ∧ s.sph = sphLatchLo then false else s.slatch) := by
  obtain ⟨w, word, action⟩ := h.lineAction_eq
  refine ⟨w, word, ?_⟩
  by_cases first : s.pcnt = 0
  · simp only [State.performed_of_first first, first, true_and, action]
  · simp only [State.performed_of_held first, first, false_and, if_false, s.driveLines_self]

/-- The end of a phase: the next action is due, or the frame is over (R121, R155). -/
def State.endPhase (s : State) : State :=
  match nextAction s.sph s.sbit with
  | some (p, n) => s.setAction p n 0
  | none => s.endFrame

theorem State.endPhase_of_next {s : State} {p : BitVec 3} {n : BitVec 4} (h : nextAction s.sph s.sbit = some (p, n)) :
    s.endPhase = s.setAction p n 0 := by
  rw [State.endPhase, h]

theorem State.endPhase_of_last {s : State} (h : nextAction s.sph s.sbit = none) : s.endPhase = s.endFrame := by
  rw [State.endPhase, h]

theorem State.advance_eq (s : State) : s.advance =
    if s.pcnt + 1 = s.cfg.phaseCycles then s.endPhase else s.setAction s.sph s.sbit (s.pcnt + 1) := rfl

/-- From legal codes a SHIFT edge records nothing and steps the serializer (R155). -/
theorem State.EngineLegal.exec_shift {s : State} (h : s.EngineLegal) (b : Bool) : exec (.shift b) s = .next s.serStep := by
  simp only [exec, execShift, sendFaults_of_legal h, (engineFaults_eq_nil s).mpr h, List.append_nil, State.unlessFault_nil]

/-- Settles O20: the action is performed by `performed`, and `advance` counts the phase. -/
theorem shiftPerformsOneSerializerEdge : Obligations.ShiftPerformsOneSerializerEdge := by
  intro s b h
  refine ⟨s.performed, fun first => ?first, fun held => State.performed_of_held held, ?edge⟩
  case first => rw [exec_decodeSact_position, State.performed_of_first first]
  case edge =>
    obtain ⟨sdata, sclk, slatch, lines⟩ : ∃ a b c, s.performed = s.driveLines a b c :=
      have ⟨_, _, lines⟩ := h.performed_eq
      ⟨_, _, _, lines⟩
    have ⟨_, _, below, _⟩ := h
    rw [h.exec_shift, State.serStep_eq, lines, State.advance_eq, State.driveLines_pcnt, State.driveLines_cfg]
    by_cases last : s.pcnt + 1 = s.cfg.phaseCycles
    · rw [if_pos last, if_neg (by omega), State.endPhase, State.driveLines_sph, State.driveLines_sbit]
      cases nextAction s.sph s.sbit <;> rfl
    · rw [if_neg last, if_pos (by omega)]
      rfl

/-! ### A frame as one operation -/

theorem State.EngineLegal.exec_writeFrame {s : State} (h : s.EngineLegal) (seg sel : Byte) :
    exec (.writeFrame seg sel) s = .next (s.sendFrame (seg ++ sel)) := by
  simp only [exec, execWriteFrame, (engineFaults_eq_nil s).mpr h, State.unlessFault_nil]

/-- With the clock low, the lines and the receiver after a frame (R128, R131, R134). -/
theorem State.frameLines_eq (s : State) (w : Frame) (h : s.sclk = false) : s.frameLines w = { s with
    sdata := w.getLsbD 0, slatch := true, recv := { sr := w, out := w } } := by
  rw [State.frameLines, pulses_eq w _ s.latchLo h, bitsInto_word, s.latchLo_eq]
  simp only [State.latchHi, State.driveLines, Receiver.observe_commit]
  rfl

/-- Settles O14. -/
theorem writeFrameCommitsItsWord : Obligations.WriteFrameCommitsItsWord := by
  intro s seg sel h clockLow
  have lastBit : (seg ++ sel).getLsbD 0 = sel.getLsbD 0 := getLsbD_append_msbFirst seg sel 15#4
  rw [h.exec_writeFrame, State.sendFrame, s.frameLines_eq _ clockLow, lastBit, ← clockLow]
  rfl

/-! ### The clocked frame -/

theorem engineRun_succ {s t : State} (k : Nat) (h : exec s.displayOp s = .next t) :
    engineRun (k + 1) s = engineRun k t := by
  simp only [engineRun, h]

theorem engineRun_add {m : Nat} {s t : State} (k : Nat) (h : engineRun m s = .next t) :
    engineRun (m + k) s = engineRun k t := by
  induction m generalizing s with
  | zero => cases h; rw [Nat.zero_add]
  | succ m ih =>
    obtain ⟨u, edge⟩ := exec_next s.displayOp s
    rw [engineRun_succ m edge] at h
    rw [Nat.succ_add, engineRun_succ _ edge, ih h]

/-- In SHIFT the engine's edge is the serializer's (R155). -/
theorem State.EngineLegal.exec_displayOp_of_shift {s : State} (h : s.EngineLegal) (shift : s.dph = dphShift) :
    exec s.displayOp s = .next s.serStep := by
  have op : s.displayOp = .shift s.inputs.srcSel := by simp [s.displayOp_eq, shift]
  rw [op, h.exec_shift]

/-- After an edge of a phase, the edges left in it only count (R121). -/
theorem State.EngineLegal.engineRun_restOfPhase {s : State} (h : s.EngineLegal) (shift : s.dph = dphShift) {k : Nat}
    (left : s.pcnt + 1 + k = s.cfg.phaseCycles) : engineRun k s.advance = .next s.endPhase := by
  induction k generalizing s with
  | zero => rw [s.advance_eq, if_pos (by omega)]; rfl
  | succ k ih =>
    have ⟨_, code, _, _, _, sbit⟩ := h
    have counted : (s.setAction s.sph s.sbit (s.pcnt + 1)).EngineLegal := h.setAction code sbit (by omega)
    rw [s.advance_eq, if_neg (by omega), engineRun_succ k (counted.exec_displayOp_of_shift shift), State.serStep_eq,
      State.performed_of_held (Nat.succ_ne_zero _)]
    exact ih counted shift (by rw [State.setAction_pcnt, State.setAction_cfg]; omega)

/-- A whole phase: its action, then the move to what follows (R121). -/
theorem State.EngineLegal.engineRun_phase {s : State} (h : s.EngineLegal) (shift : s.dph = dphShift) (first : s.pcnt = 0) :
    engineRun s.cfg.phaseCycles s = .next s.lineAction.endPhase := by
  obtain ⟨w, -, lines⟩ := h.lineAction_eq
  have ⟨_, _, below, _⟩ := h
  obtain ⟨k, hk⟩ : ∃ k, s.cfg.phaseCycles = k + 1 := Nat.exists_eq_add_one.mpr (Nat.zero_lt_of_lt below)
  rw [hk, engineRun_succ k (h.exec_displayOp_of_shift shift), State.serStep_eq, State.performed_of_first first]
  refine h.lineAction.engineRun_restOfPhase ?_ ?_
  · rw [lines]; exact shift
  · rw [lines, State.driveLines_pcnt, State.driveLines_cfg]; omega

/-- `s` stands at the first edge of action `j` of the frame of word `w`. -/
structure State.AtAction (s : State) (w : Frame) (j : Nat) : Prop where
  legal : s.EngineLegal
  shift : s.dph = dphShift
  first : s.pcnt = 0
  action : (s.sph, s.sbit) = actionAt j
  word : s.curWord = .ok w

/-- The serializer at the first edge of action `j`, everything else as it is. -/
def State.toAction (s : State) (j : Nat) : State := s.setAction (actionAt j).1 (actionAt j).2 0

/-! Lines and sequencer are different registers: an action on the lines may as well come first. -/

theorem State.toAction_toAction (s : State) (i j : Nat) : (s.toAction i).toAction j = s.toAction j := rfl

theorem State.toAction_sclkHi (s : State) (i : Nat) : (s.toAction i).sclkHi = s.sclkHi.toAction i := rfl

theorem State.toAction_sclkLo (s : State) (i : Nat) : (s.toAction i).sclkLo = s.sclkLo.toAction i := rfl

theorem State.toAction_latchHi (s : State) (i : Nat) : (s.toAction i).latchHi = s.latchHi.toAction i := rfl

theorem State.toAction_pulseBit (s : State) (i : Nat) (b : Bool) : (s.toAction i).pulseBit b = (s.pulseBit b).toAction i := rfl

/-- A phase performs its action and leads to the first edge of the next one (R120, R121). -/
theorem State.AtAction.engineRun_phase {s : State} {w : Frame} {j : Nat} (h : s.AtAction w j) (hj : j < 49) :
    engineRun s.cfg.phaseCycles s = .next (s.lineAction.toAction (j + 1)) ∧
      (s.lineAction.toAction (j + 1)).AtAction w (j + 1) := by
  obtain ⟨legal, shift, first, action, word⟩ := h
  obtain ⟨-, -, -, follows, -⟩ := lineActionsFollowTheFrameOrder
  have next : nextAction s.sph s.sbit = some (actionAt (j + 1)) := by
    have follows := follows ⟨j, hj⟩
    rwa [← action] at follows
  obtain ⟨_, -, lines⟩ := legal.lineAction_eq
  obtain ⟨codes, sbit⟩ := nextAction_legal _ _ _ _ next
  have ⟨_, _, below, _⟩ := legal.lineAction
  constructor
  · rw [legal.engineRun_phase shift first, State.endPhase_of_next (by rw [lines]; exact next)]
    rfl
  · refine ⟨legal.lineAction.setAction codes sbit (Nat.zero_lt_of_lt below), ?_, rfl, rfl, ?_⟩
    · rw [lines]; exact shift
    · rw [lines]; exact word

/-- The code of action `j`, once its place in the frame's order is known. -/
theorem State.AtAction.position {s : State} {w : Frame} {i j : Nat} {p : BitVec 3} {n : BitVec 4} (h : s.AtAction w i)
    (index : i = j) (place : actionAt j = (p, n)) : s.sph = p ∧ s.sbit = n :=
  Prod.mk.inj (h.action.trans (index ▸ place))

/-- Three phases put a bit on the data line and pulse the clock, as `pulseBit` does (R123 to R125). -/
theorem State.AtAction.engineRun_bit {s : State} {w : Frame} {n : Nat} (h : s.AtAction w (1 + 3 * n)) (hn : n < 16) :
    engineRun (3 * s.cfg.phaseCycles) s = .next ((s.pulseBit (w.getLsbD (15 - n))).toAction (1 + 3 * (n + 1))) ∧
      ((s.pulseBit (w.getLsbD (15 - n))).toAction (1 + 3 * (n + 1))).AtAction w (1 + 3 * (n + 1)) := by
  obtain ⟨-, -, places, -, -⟩ := lineActionsFollowTheFrameOrder
  obtain ⟨data, clkHi, clkLo⟩ : actionAt (1 + 3 * n) = (sphData, BitVec.ofNat 4 n) ∧
    actionAt (2 + 3 * n) = (sphClkHi, BitVec.ofNat 4 n) ∧ actionAt (3 + 3 * n) = (sphClkLo, BitVec.ofNat 4 n) :=
    places ⟨n, hn⟩
  obtain ⟨run1, at1⟩ := h.engineRun_phase (by omega)
  have sent : s.lineAction = s.putBit (w.getLsbD (15 - n)) := by
    obtain ⟨sph, sbit⟩ := h.position rfl data
    rw [State.lineAction_of_data sph, State.sdataBit, h.word, sbit, BitVec.toNat_ofNat, Nat.mod_eq_of_lt hn]
  rw [sent] at run1 at1
  obtain ⟨run2, at2⟩ := at1.engineRun_phase (by omega)
  rw [State.lineAction_of_clkHi (at1.position (by omega) clkHi).1, State.toAction_sclkHi, State.toAction_toAction] at run2 at2
  obtain ⟨run3, at3⟩ := at2.engineRun_phase (by omega)
  rw [State.lineAction_of_clkLo (at2.position (by omega) clkLo).1, State.toAction_sclkLo, State.toAction_toAction] at run3 at3
  refine ⟨?_, at3⟩
  rw [show 3 * s.cfg.phaseCycles = s.cfg.phaseCycles + (s.cfg.phaseCycles + s.cfg.phaseCycles) by omega]
  exact (engineRun_add _ run1).trans ((engineRun_add _ run2).trans run3)

/-- The pulses of the first `k` bits of a frame word, most significant first (R128). -/
def State.pulses (s : State) (w : Frame) (k : Nat) : State :=
  (List.range k).foldl (fun t n => t.pulseBit (w.getLsbD (15 - n))) s

theorem State.pulses_succ (s : State) (w : Frame) (k : Nat) :
    s.pulses w (k + 1) = (s.pulses w k).pulseBit (w.getLsbD (15 - k)) := by
  simp only [State.pulses, List.range_succ, List.foldl_append, List.foldl_cons, List.foldl_nil]

theorem State.sendFrame_eq_pulses (s : State) (w : Frame) :
    s.sendFrame w = ((s.latchLo.pulses w 16).latchHi.toAction 49).endFrame := rfl

/-- By induction on the bits: `k` of them take `3 * k` phases. -/
theorem State.AtAction.engineRun_bits {s : State} {w : Frame} (h : (s.toAction 1).AtAction w 1) {k : Nat} (hk : k ≤ 16) :
    engineRun (3 * k * s.cfg.phaseCycles) (s.toAction 1) = .next ((s.pulses w k).toAction (1 + 3 * k)) ∧
      ((s.pulses w k).toAction (1 + 3 * k)).AtAction w (1 + 3 * k) := by
  induction k with
  | zero => exact ⟨by rw [Nat.mul_zero, Nat.zero_mul]; rfl, h⟩
  | succ k ih =>
    obtain ⟨run, place⟩ := ih (by omega)
    obtain ⟨bit, next⟩ := place.engineRun_bit (by omega)
    have cfg : ((s.pulses w k).toAction (1 + 3 * k)).cfg = s.cfg := (EngineFrame.pulses w _ s).cfg
    rw [cfg, State.toAction_pulseBit, State.toAction_toAction] at bit
    rw [State.toAction_pulseBit, State.toAction_toAction] at next
    rw [State.pulses_succ, show 3 * (k + 1) * s.cfg.phaseCycles = 3 * k * s.cfg.phaseCycles + 3 * s.cfg.phaseCycles by
      rw [Nat.mul_succ, Nat.add_mul]]
    exact ⟨(engineRun_add _ run).trans bit, next⟩

/-- Forty-nine phases of a frame lead to its last action: the latch is low, all bits are in, SLATCH is yet to rise (R128, R133). -/
theorem State.AtAction.engineRun_upToLatchHi {s : State} {w : Frame} (h : s.AtAction w 0) :
    engineRun (49 * s.cfg.phaseCycles) s = .next ((s.latchLo.pulses w 16).toAction 49) ∧
      ((s.latchLo.pulses w 16).toAction 49).AtAction w 49 := by
  obtain ⟨low, at1⟩ := h.engineRun_phase (by omega)
  rw [State.lineAction_of_latchLo (h.position rfl rfl).1] at low at1
  obtain ⟨bits, at49⟩ := at1.engineRun_bits (Nat.le_refl 16)
  refine ⟨?_, at49⟩
  rw [show 49 * s.cfg.phaseCycles = s.cfg.phaseCycles + 3 * 16 * s.cfg.phaseCycles by omega]
  exact (engineRun_add _ low).trans bits

/-- All fifty phases, LATCH_HI the last, end where the one operation does (R128, R133, R155; log 11). -/
theorem State.AtAction.engineRun_frame {s : State} {w : Frame} (h : s.AtAction w 0) :
    engineRun (50 * s.cfg.phaseCycles) s = .next (s.sendFrame w) := by
  obtain ⟨upToLatchHi, at49⟩ := h.engineRun_upToLatchHi
  have last := at49.legal.engineRun_phase at49.shift at49.first
  rw [State.lineAction_of_latchHi (at49.position rfl rfl).1, State.toAction_latchHi, State.endPhase_of_last rfl] at last
  have cfg : ((s.latchLo.pulses w 16).toAction 49).cfg = s.cfg := (EngineFrame.pulses w _ s.latchLo).cfg
  rw [cfg] at last
  rw [s.sendFrame_eq_pulses, show 50 * s.cfg.phaseCycles = 49 * s.cfg.phaseCycles + s.cfg.phaseCycles by omega]
  exact (engineRun_add _ upToLatchHi).trans last

/-- Settles O15: the slot's word is what the fifty phases send. -/
theorem clockedFrameRefinesWriteFrame : Obligations.ClockedFrameRefinesWriteFrame := by
  intro s seg sel legal shift latchLo first word
  have ⟨_, _, _, _, _, sbit⟩ := legal
  have start : s.AtAction (seg ++ sel) 0 := ⟨legal, shift, first, by rw [latchLo, sbit (.inl latchLo)]; rfl, word⟩
  exact ⟨_, legal.exec_writeFrame seg sel, start.engineRun_frame⟩

end Sys2Proof.Machine
end

section
/-! PROOFS. The three lines along the clock edges of a run: where they stand in each phase (R129, R131, R256) and at which edges they
rise (R124, R126, R134). -/
namespace Sys2Proof.Machine

/-! ### A clock edge from a legal state -/

/-- What the display engine may do at a clock edge out of POR, from legal codes and with the time in range (R153 to R156). -/
inductive EngineMove (u : State) : State → Prop where
  | load (phase : u.dph = dphLoad) (v : BitVec 16) (en : Bool) (pos : BitVec 2) : EngineMove u (u.capture (digits v) en pos)
  | shift (phase : u.dph = dphShift) : EngineMove u u.serStep
  | settle (phase : u.dph = dphSettle) : EngineMove u u.settleStep

theorem exec_displayOp_move {u d : State} (inRange : u.TimeInRange) (legal : u.EngineLegal)
    (h : exec u.displayOp u = .next d) : EngineMove u d := by
  rcases exec_displayOp_cases legal h with
    ⟨load, -, -, rfl⟩ | ⟨-, -, outOfRange, -⟩ | ⟨load, -, rfl⟩ | ⟨shift, rfl⟩ | ⟨settle, rfl⟩
  · exact .load load ..
  · exact absurd inRange outOfRange
  · exact .load load ..
  · exact .shift shift
  · exact .settle settle

/-- A clock edge from a legal state is a POR, or a move of the display engine beside a write of the time (R10). -/
theorem step_edge_cases {s t : State} (h : s.Legal) (edge : s.NextIsEdge) (hs : step s = .next t) :
    ∃ x rest, t = (s.sample x rest).blockReset.countEdge ∨
      ∃ d sec min, EngineMove (s.sample x rest) d ∧ t = (d.setTime sec min).countEdge := by
  obtain ⟨-, inRange, legal⟩ := h
  obtain ⟨-, -, run⟩ := step_next hs
  obtain ⟨x, rest, runEdge, -⟩ := s.runNext_of_edge edge
  rw [runEdge] at run
  refine ⟨x, rest, ?_⟩
  rcases clockEdge_cases (s.sample x rest) with ⟨-, por⟩ | ⟨outOfPor, -⟩
  · rw [por] at run
    exact .inl (Host.Outcome.next.inj run).symm
  · obtain ⟨a, d, -, display, -, -, quiet⟩ := clockEdge_of_legal (u := s.sample x rest) inRange legal outOfPor
    rw [quiet] at run
    exact .inr ⟨d, a.sec, a.min, exec_displayOp_move inRange legal display, (Host.Outcome.next.inj run).symm⟩

/-! ### Where the lines stand -/

theorem State.linesInPhase_of_load {s : State} (h : s.dph = dphLoad) : s.LinesInPhase ↔
    s.sclk = false ∧ ((s.slatch = true ∧ s.sph = sphLatchHi) ∨
      (s.slatch = false ∧ s.sdata = false ∧ s.sph = sphLatchLo)) ∧ s.pcnt = 0 ∧ s.scnt = 0 := by
  simp [State.LinesInPhase, h, show dphLoad ≠ dphSettle by decide]

theorem State.linesInPhase_of_shift {s : State} (h : s.dph = dphShift) : s.LinesInPhase ↔
    (s.sclk = true ↔ (s.sph = sphClkHi ∧ s.pcnt ≠ 0) ∨ (s.sph = sphClkLo ∧ s.pcnt = 0)) ∧
    (¬(s.sph = sphLatchLo ∧ s.pcnt = 0) → (s.slatch = true ↔ s.sph = sphLatchHi ∧ s.pcnt ≠ 0)) ∧ s.scnt = 0 := by
  simp [State.LinesInPhase, h, show dphShift ≠ dphSettle by decide]

theorem State.linesInPhase_of_settle {s : State} (h : s.dph = dphSettle) : s.LinesInPhase ↔
    s.sclk = false ∧ (s.slatch = true ∧ s.sph = sphLatchHi) ∧ s.pcnt = 0 := by
  simp [State.LinesInPhase, h, show dphSettle ≠ dphLoad by decide, show dphSettle ≠ dphShift by decide]

/-- The lines once the action of a phase is performed: SCLK is high in CLK_HI alone, SLATCH in LATCH_HI alone. -/
structure State.LinesOfAction (s : State) : Prop where
  sclk : s.sclk = true ↔ s.sph = sphClkHi
  slatch : s.slatch = true ↔ s.sph = sphLatchHi

/-- A line that one action raises and another lowers, and that is low already if neither acts. -/
theorem driven_high_iff {rise fall : Prop} [Decidable rise] [Decidable fall] {was : Bool} (low : ¬fall → was = false) :
    (if rise then true else if fall then false else was) = true ↔ rise := by
  by_cases up : rise
  · simp only [up, if_true]
  · by_cases down : fall
    · simp only [up, down, if_true, if_false, Bool.false_eq_true]
    · simp only [up, down, low down, if_false, Bool.false_eq_true]

theorem State.LinesInPhase.performed {s : State} (h : s.LinesInPhase) (legal : s.EngineLegal) (shift : s.dph = dphShift) :
    s.performed.LinesOfAction := by
  obtain ⟨w, -, lines⟩ := legal.performed_eq
  obtain ⟨sclk, slatch, -⟩ := (State.linesInPhase_of_shift shift).mp h
  rw [lines]
  by_cases first : s.pcnt = 0
  · simp only [first, ne_eq, not_true, and_false, and_true, false_or, iff_false, Bool.not_eq_true] at sclk slatch
    constructor
    · simp only [State.driveLines_sclk, State.driveLines_sph, first, true_and]
      exact driven_high_iff fun notClkLo => Bool.eq_false_iff.mpr fun high => notClkLo (sclk.mp high)
    · simp only [State.driveLines_slatch, State.driveLines_sph, first, true_and]
      exact driven_high_iff slatch
  · simp only [first, ne_eq, not_false_eq_true, and_true, and_false, or_false, true_implies] at sclk slatch
    constructor
    · simp only [State.driveLines_sclk, State.driveLines_sph, first, false_and, if_false, sclk]
    · simp only [State.driveLines_slatch, State.driveLines_sph, first, false_and, if_false, slatch]

/-- NEXT never leaves LATCH_HI, never leads to LATCH_LO, and leads to CLK_LO from CLK_HI alone (R120). -/
theorem nextAction_order {p q : BitVec 3} {n m : BitVec 4} (next : nextAction p n = some (q, m)) :
    p ≠ sphLatchHi ∧ q ≠ sphLatchLo ∧ (p = sphClkHi ↔ q = sphClkLo) := by
  unfold nextAction at next
  repeat' split at next
  all_goals cases next
  all_goals
    subst p
    decide

/-- Counting a phase keeps the lines in phase: SCLK falls due after CLK_HI alone, and only LATCH_HI, with SLATCH high, ends the
frame (R120, R121). -/
theorem State.LinesOfAction.advance {s : State} (h : s.LinesOfAction) (legal : s.EngineLegal) (shift : s.dph = dphShift)
    (scnt : s.scnt = 0) : s.advance.LinesInPhase := by
  obtain ⟨sclk, slatch⟩ := h
  rw [s.advance_eq]
  by_cases last : s.pcnt + 1 = s.cfg.phaseCycles
  · rw [if_pos last]
    cases next : nextAction s.sph s.sbit with
    | some a =>
      obtain ⟨notLast, notFirst, falls⟩ := nextAction_order next
      rw [State.endPhase_of_next next, State.linesInPhase_of_shift (s := s.setAction a.1 a.2 0) shift]
      simp [sclk, slatch, notLast, falls, scnt]
    | none =>
      have ⟨_, code, _⟩ := legal
      have latchHi := nextAction_none s.sph s.sbit code next
      have low : s.sclk = false := Bool.eq_false_iff.mpr fun high => by
        rw [latchHi] at sclk
        exact absurd (sclk.mp high) (by decide)
      rw [State.endPhase_of_last next, State.linesInPhase_of_settle rfl]
      exact ⟨low, ⟨slatch.mpr latchHi, latchHi⟩, rfl⟩
  · rw [if_neg last, State.linesInPhase_of_shift (s := s.setAction s.sph s.sbit (s.pcnt + 1)) shift]
    simp [sclk, slatch, scnt]

theorem State.LinesInPhase.serStep {s : State} (h : s.LinesInPhase) (legal : s.EngineLegal) (shift : s.dph = dphShift) :
    s.serStep.LinesInPhase := by
  obtain ⟨_, -, lines⟩ := legal.performed_eq
  obtain ⟨-, -, scnt⟩ := (State.linesInPhase_of_shift shift).mp h
  have actionDone := h.performed legal shift
  rw [lines] at actionDone
  rw [State.serStep_eq, lines]
  exact actionDone.advance (legal.driveLines ..) shift scnt

theorem State.LinesInPhase.settleStep {s : State} (h : s.LinesInPhase) (settle : s.dph = dphSettle) :
    s.settleStep.LinesInPhase := by
  obtain ⟨sclk, slatch, pcnt⟩ := (State.linesInPhase_of_settle settle).mp h
  unfold State.settleStep
  split
  · split
    · exact (State.linesInPhase_of_load rfl).mpr ⟨sclk, .inl slatch, pcnt, rfl⟩
    · exact (State.linesInPhase_of_shift rfl).mpr (by simp [sclk, show sphLatchLo ≠ sphClkLo by decide])
  · exact (State.linesInPhase_of_settle (s := s.countSettle) settle).mpr ⟨sclk, slatch, pcnt⟩

theorem State.LinesInPhase.capture {s : State} (h : s.LinesInPhase) (load : s.dph = dphLoad) (d : Vector (BitVec 4) 4)
    (en : Bool) (pos : BitVec 2) : (s.capture d en pos).LinesInPhase := by
  obtain ⟨sclk, -, -, scnt⟩ := (State.linesInPhase_of_load load).mp h
  exact (State.linesInPhase_of_shift rfl).mpr (by simp [sclk, scnt, show sphLatchLo ≠ sphClkLo by decide])

theorem State.blockReset_linesInPhase (s : State) : s.blockReset.LinesInPhase :=
  (State.linesInPhase_of_load rfl).mpr ⟨rfl, .inr ⟨rfl, rfl, rfl⟩, rfl, rfl⟩

/-- Every move of the engine, phase by phase. -/
theorem EngineMove.linesInPhase {u d : State} (h : EngineMove u d) (legal : u.EngineLegal) (lines : u.LinesInPhase) :
    d.LinesInPhase := by
  cases h with
  | load phase => exact lines.capture phase ..
  | shift phase => exact lines.serStep legal phase
  | settle phase => exact lines.settleStep phase

/-- Settles O54: the write of the time and the count of the edge touch no field that the lines' place depends on. -/
theorem linesStayInPhase : Obligations.LinesStayInPhase := by
  intro s t h lines edge hs
  have ⟨_, _, legal⟩ := h
  obtain ⟨x, rest, rfl | ⟨d, sec, min, move, rfl⟩⟩ := step_edge_cases h edge hs
  · exact (s.sample x rest).blockReset_linesInPhase
  · exact move.linesInPhase legal lines

/-! ### Where the lines rise -/

theorem LinesKept.advance (s : State) : LinesKept s s.advance := by
  rw [s.advance_eq, State.endPhase]
  repeat' split
  all_goals exact ⟨rfl, rfl, rfl, rfl⟩

/-- At a move of the engine the lines and the receiver stay, or it is a SHIFT edge, which leaves them as its action does. -/
theorem EngineMove.lines {u d : State} (h : EngineMove u d) :
    LinesKept u d ∨ (u.dph = dphShift ∧ LinesKept u.performed d) := by
  cases h with
  | load => exact .inl (.capture ..)
  | shift phase => exact .inr ⟨phase, .advance _⟩
  | settle => exact .inl (.settleStep u)

/-- A rise of SLATCH is a LATCH_HI action's, and commits the chain (R126, R134). -/
theorem EngineMove.slatch_rise {u d : State} (h : EngineMove u d) (legal : u.EngineLegal) (was : u.slatch = false)
    (is : d.slatch = true) : u.dph = dphShift ∧ u.sph = sphLatchHi ∧ u.pcnt = 0 ∧
      d.recv = { u.recv with out := u.recv.sr } := by
  rcases h.lines with kept | ⟨shift, kept⟩
  · rw [kept.slatch, was] at is
    cases is
  obtain ⟨w, -, lines⟩ := legal.performed_eq
  have rises : u.pcnt = 0 ∧ u.sph = sphLatchHi := by
    rw [kept.slatch, lines, State.driveLines_slatch, was] at is
    exact Classical.byContradiction fun other => by simp [other] at is
  obtain ⟨first, latchHi⟩ := rises
  refine ⟨shift, latchHi, first, ?_⟩
  rw [kept.recv, State.performed_of_first first, State.lineAction_of_latchHi latchHi, State.latchHi_eq, was]
  rfl

/-- A rise of SCLK is a CLK_HI action's, and shifts SDATA in (R124, R134). -/
theorem EngineMove.sclk_rise {u d : State} (h : EngineMove u d) (legal : u.EngineLegal) (was : u.sclk = false)
    (is : d.sclk = true) : u.dph = dphShift ∧ u.sph = sphClkHi ∧ u.pcnt = 0 ∧
      d.recv = { u.recv with sr := u.recv.sr <<< 1 ||| (BitVec.ofBool u.sdata).setWidth 16 } := by
  rcases h.lines with kept | ⟨shift, kept⟩
  · rw [kept.sclk, was] at is
    cases is
  obtain ⟨w, -, lines⟩ := legal.performed_eq
  have rises : u.pcnt = 0 ∧ u.sph = sphClkHi := by
    rw [kept.sclk, lines, State.driveLines_sclk, was] at is
    exact Classical.byContradiction fun other => by simp [other] at is
  obtain ⟨first, clkHi⟩ := rises
  refine ⟨shift, clkHi, first, ?_⟩
  rw [kept.recv, State.performed_of_first first, State.lineAction_of_clkHi clkHi, State.sclkHi_eq, was]
  rfl

/-- Settles O56: a POR only lowers the lines, and any other edge is a move of the engine. -/
theorem linesRiseOnlyInTheirActions : Obligations.LinesRiseOnlyInTheirActions := by
  intro s t h edge hs
  have ⟨_, _, legal⟩ := h
  obtain ⟨x, rest, rfl | ⟨d, sec, min, move, rfl⟩⟩ := step_edge_cases h edge hs
  · exact ⟨fun _ => nofun, fun _ => nofun⟩
  · exact ⟨move.slatch_rise legal, move.sclk_rise legal⟩

end Sys2Proof.Machine
end

section
/-! PROOFS. The display multiplexer's values and phases (42_display_mux.md): the digits of a render value (R150, R162), the frame word
(R152), and what each phase but SHIFT does from legal codes (R153, R154, R156, R157). -/
namespace Sys2Proof.Machine

/-! ### Digits and frame word -/

/-- Settles O16: the four powers of ten of `digit_toNat`, the last of them 1. -/
theorem digitIsItsDecimalPlace : Obligations.DigitIsItsDecimalPlace := by
  intro v
  have units : (digit v 3).toNat = v.toNat % 10 := (digit_toNat v 3).trans (congrArg (fun k => k % 10) (Nat.div_one v.toNat))
  exact ⟨digit_toNat v 0, digit_toNat v 1, digit_toNat v 2, units, digit_lt_ten v⟩

/-- Settles O17. -/
theorem digitsRecompose : Obligations.DigitsRecompose := by
  intro v sum
  obtain ⟨thousands, hundreds, tens, units, -⟩ := digitIsItsDecimalPlace v
  have recomposed : sum = v.toNat % 10000 := by omega
  exact ⟨recomposed, by omega⟩

/-- Settles O10: a digit that the table holds is in range, and `ENC` is the table's mask with its point gated. -/
theorem frameWordIsMaskAndSelect : Obligations.FrameWordIsMaskAndSelect := by
  intro s m entry
  obtain ⟨inRange, mask⟩ := Vector.getElem?_eq_some_iff.mp entry
  have point : s.decimalOn = true ↔ s.rdpen = true ∧ s.rdppos = s.didx := by simp [State.decimalOn]
  rw [s.curWord_of_lt inRange]
  simp only [State.rdigAt, mask, point, Config.withPoint, Config.selRom]

/-! ### A LOAD edge -/

/-- From legal codes and with the time in range LOAD_TIME captures (R153). -/
theorem State.EngineLegal.exec_loadTime {s : State} (h : s.EngineLegal) (inRange : s.TimeInRange) :
    exec .loadTime s = .next (s.capture (digits s.timeValue) true timeDpPos) := by
  simp only [exec, execLoadTime, State.loadTime, (engineFaults_eq_nil s).mpr h, (timeFaults_eq_nil s).mpr inRange,
    List.append_nil, State.unlessFault_nil]

/-- With the time out of range it records and does not move (R153, R199). -/
theorem State.EngineLegal.exec_loadTime_of_outOfRange {s : State} (h : s.EngineLegal) (outOfRange : ¬s.TimeInRange) :
    exec .loadTime s = .next (s.raise [.timeInv s.min s.sec]) := by
  simp only [exec, execLoadTime, State.loadTime, (engineFaults_eq_nil s).mpr h, timeFaults_of_not outOfRange,
    List.nil_append, State.unlessFault]

/-- From legal codes LOAD_EXT captures whatever the ports hold (R154). -/
theorem State.EngineLegal.exec_loadExt {s : State} (h : s.EngineLegal) :
    exec .loadExt s = .next (s.capture (digits s.inputs.extValue) s.inputs.extDpEn s.inputs.extDpPos) := by
  simp only [exec, execLoadExt, (engineFaults_eq_nil s).mpr h, State.unlessFault_nil]

/-- Settles O18. -/
theorem loadTimeCapturesTheTime : Obligations.LoadTimeCapturesTheTime := by
  intro s h
  constructor
  · intro inRange
    have inRange : s.TimeInRange := inRange
    rw [h.exec_loadTime inRange, inRange.digits_timeValue]
    rfl
  · intro outOfRange
    rw [h.exec_loadTime_of_outOfRange (by rw [State.TimeInRange]; omega), State.raise_single]

/-- Settles O19. -/
theorem loadExtCapturesThePorts : Obligations.LoadExtCapturesThePorts := by
  intro s h
  rw [h.exec_loadExt, digits_eq]
  rfl

/-! ### A SETTLE edge -/

/-- The end of a settle interval: the next position's slot, or LOAD after the last position (R156). -/
def State.endSettle (s : State) : State := if s.didx = 3#2 then s.endCycle else s.nextSlot

theorem State.settleStep_eq (s : State) :
    s.settleStep = if s.scnt + 1 = s.cfg.settleCycles then s.endSettle else s.countSettle := rfl

/-- From legal codes SETTLE records nothing (R156). -/
theorem State.EngineLegal.exec_settle {s : State} (h : s.EngineLegal) (b : Bool) :
    exec (.settle b) s = .next s.settleStep := by
  simp only [exec, execSettle, (engineFaults_eq_nil s).mpr h, State.unlessFault_nil]

/-- Settles O21. -/
theorem settleHoldsThenAdvances : Obligations.SettleHoldsThenAdvances := by
  intro s b h
  have ⟨_, _, _, below, _⟩ := h
  have lastPosition : s.didx = 3#2 ↔ s.didx.toNat = 3 := BitVec.toNat_inj.symm
  have nextPosition : BitVec.ofNat 2 (s.didx.toNat + 1) = s.didx + 1#2 := by simp [BitVec.ofNat_add]
  rw [h.exec_settle, s.settleStep_eq]
  by_cases last : s.scnt + 1 = s.cfg.settleCycles
  · rw [if_pos last, if_neg (by omega), State.endSettle]
    simp only [lastPosition, nextPosition]
    rfl
  · rw [if_neg last, if_pos (by omega)]
    rfl

/-! ### The reserved phase -/

/-- The phase is the only code of R42 that can be unreachable where LOAD would make all codes legal. -/
theorem engineFaults_of_phaseOnly {s : State} (h : ({ s with dph := dphLoad } : State).EngineLegal) :
    engineFaults s = causeIf (s.dph = dphReserved) (.dphRsvd s.dph) := by
  have quiet := (engineFaults_eq_nil _).mpr h
  simp only [engineFaults, List.append_eq_nil_iff] at quiet
  obtain ⟨⟨⟨⟨⟨-, sph⟩, pcnt⟩, scnt⟩, rdig⟩, sbit⟩ := quiet
  simp only [engineFaults, sph, pcnt, scnt, rdig, sbit, List.append_nil]

/-- The record is a set: a cause met twice is recorded once (R220). -/
theorem orderByCode_pair_self (c : FaultCause) : orderByCode [c, c] = [c] := by
  cases c <;> simp [orderByCode, FaultCause.code, List.eraseDups_cons]

/-- Settles O22: the code of the row and the code that the phase may hold are one cause. -/
theorem reservedPhaseIsRecorded : Obligations.ReservedPhaseIsRecorded := by
  intro s b h
  have once : orderByCode (.dphRsvd dphReserved :: engineFaults s) = [.dphRsvd dphReserved] := by
    rw [engineFaults_of_phaseOnly h]
    by_cases reserved : s.dph = dphReserved
    · rw [causeIf, if_pos reserved, reserved, orderByCode_pair_self]
    · rw [causeIf, if_neg reserved, orderByCode_single]
  simp only [exec, execDphRsvd, State.raise, once, List.map_singleton]

end Sys2Proof.Machine
end

section
/-! PROOFS. A multiplex cycle as one operation is four frames of the captured digits (R158, R159). A frame works on the lines alone, so
it neither reads nor moves the digit position. -/
namespace Sys2Proof.Machine

/-! ### A frame works on the lines -/

/-- `s` with the lines and the receiver of `t`. -/
def State.withLines (s t : State) : State := { s with sdata := t.sdata, sclk := t.sclk, slatch := t.slatch, recv := t.recv }

theorem State.withLines_pulses (w : Frame) (ns : List Nat) (s t : State) :
    ns.foldl (fun t n => t.pulseBit (w.getLsbD (15 - n))) (s.withLines t) =
      s.withLines (ns.foldl (fun t n => t.pulseBit (w.getLsbD (15 - n))) t) := by
  induction ns generalizing t with
  | nil => rfl
  | cons n ns ih => exact ih (t.pulseBit (w.getLsbD (15 - n)))

theorem State.withLines_frameLines (s t : State) (w : Frame) :
    (s.withLines t).frameLines w = s.withLines (t.frameLines w) :=
  congrArg State.latchHi (State.withLines_pulses w _ s t.latchLo)

/-- A frame writes the lines, the receiver and the sequencer, and reads the lines and the receiver (R128, R155). -/
theorem State.withLines_sendFrame (s t : State) (w : Frame) :
    (s.withLines t).sendFrame w = ((s.withLines (t.frameLines w)).setAction sphLatchHi 0#4 0).endFrame := by
  rw [State.sendFrame, State.withLines_frameLines]

theorem State.sendFrame_eq_withLines (s : State) (w : Frame) :
    s.sendFrame w = ((s.withLines (s.frameLines w)).setAction sphLatchHi 0#4 0).endFrame := s.withLines_sendFrame s w

@[simp] theorem State.withLines_rdig (s t : State) : (s.withLines t).rdig = s.rdig := rfl
@[simp] theorem State.withLines_rdpen (s t : State) : (s.withLines t).rdpen = s.rdpen := rfl
@[simp] theorem State.withLines_rdppos (s t : State) : (s.withLines t).rdppos = s.rdppos := rfl
@[simp] theorem State.withLines_didx (s t : State) : (s.withLines t).didx = s.didx := rfl

@[simp] theorem State.sendFrame_cfg (s : State) (w : Frame) : (s.sendFrame w).cfg = s.cfg := (EngineFrame.sendFrame s w).cfg

@[simp] theorem State.sendFrame_rdig (s : State) (w : Frame) : (s.sendFrame w).rdig = s.rdig := by
  simp [s.sendFrame_eq_withLines]

@[simp] theorem State.sendFrame_rdpen (s : State) (w : Frame) : (s.sendFrame w).rdpen = s.rdpen := by
  simp [s.sendFrame_eq_withLines]

@[simp] theorem State.sendFrame_rdppos (s : State) (w : Frame) : (s.sendFrame w).rdppos = s.rdppos := by
  simp [s.sendFrame_eq_withLines]

@[simp] theorem State.sendFrame_didx (s : State) (w : Frame) : (s.sendFrame w).didx = s.didx := by
  simp [s.sendFrame_eq_withLines]

/-- The digit position may as well be set after the frame. -/
theorem State.setDigit_sendFrame (s : State) (i : BitVec 2) (w : Frame) :
    (s.setDigit i).sendFrame w = (s.sendFrame w).setDigit i := by
  rw [s.sendFrame_eq_withLines]
  exact (s.setDigit i).withLines_sendFrame s w

/-! ### The frame word of a captured value -/

/-- The frame that RENDER sends at position `i` (R152, R158). -/
def slotWord (c : Config) (v : BitVec 16) (en : Bool) (pos i : BitVec 2) : Frame :=
  slotMask c v.toNat en pos.toFin i.toFin ++ c.selRom i

/-- `s` is of build `c` and holds the captured render value `v` with its point `en`, `pos` (R30, R31). -/
structure State.Shows (s : State) (c : Config) (v : BitVec 16) (en : Bool) (pos : BitVec 2) : Prop where
  cfg : s.cfg = c
  rdig : s.rdig = digits v
  rdpen : s.rdpen = en
  rdppos : s.rdppos = pos

section
variable {s : State} {c : Config} {v : BitVec 16} {en : Bool} {pos : BitVec 2}

theorem State.capture_shows (s : State) (v : BitVec 16) (en : Bool) (pos : BitVec 2) :
    (s.capture (digits v) en pos).Shows s.cfg v en pos := ⟨rfl, rfl, rfl, rfl⟩

theorem State.Shows.sendFrame (h : s.Shows c v en pos) (w : Frame) : (s.sendFrame w).Shows c v en pos := by
  obtain ⟨cfg, rdig, rdpen, rdppos⟩ := h
  constructor <;> simpa

theorem State.Shows.setDigit (h : s.Shows c v en pos) (i : BitVec 2) : (s.setDigit i).Shows c v en pos := by
  obtain ⟨cfg, rdig, rdpen, rdppos⟩ := h
  constructor <;> simpa

/-- The frame word of a captured value is its decimal digit's mask and the select byte (R150 to R152). -/
theorem State.Shows.curWord (h : s.Shows c v en pos) : s.curWord = .ok (slotWord c v en pos s.didx) := by
  obtain ⟨rfl, rdig, rfl, rfl⟩ := h
  have place : s.rdig[s.didx.toNat].toNat = v.toNat / 10 ^ (3 - s.didx.toNat) % 10 := by
    have captured := (congrArg BitVec.toNat (digits_get v s.didx.toFin)).trans (digit_toNat v s.didx.toFin)
    rw [← rdig] at captured
    exact captured
  have inTable : v.toNat / 10 ^ (3 - s.didx.toNat) % 10 < 10 := Nat.mod_lt _ (by decide)
  have entry : s.cfg.segTable[s.rdig[s.didx.toNat].toNat]? =
      some s.cfg.segTable[v.toNat / 10 ^ (3 - s.didx.toNat) % 10] := by
    rw [place, Vector.getElem?_eq_getElem inTable]
  have point (i j : BitVec 2) : (i.toFin : Fin 4) = j.toFin ↔ i = j := BitVec.toFin_inj
  rw [frameWordIsMaskAndSelect s _ entry, slotWord, slotMask]
  simp only [point]
  rfl

/-- A slot of RENDER is the frame of its position's word, whatever position the slot before it left (R158, R159). -/
theorem State.Shows.setDigit_sendSlot (h : s.Shows c v en pos) (j i : BitVec 2) :
    (s.setDigit j).sendSlot i = (s.sendFrame (slotWord c v en pos i)).setDigit i := by
  have word : ((s.setDigit j).setDigit i).curWord = .ok (slotWord c v en pos i) := (h.setDigit i).curWord
  simp only [State.sendSlot, word, State.setDigit_sendFrame]
  rfl

/-- Back at LOAD, the position is that of the first slot again (R156). -/
theorem State.endCycle_setDigit {t : State} (position : t.didx = 0#2) (scnt : t.scnt = 0) (i : BitVec 2) :
    (t.setDigit i).endCycle = { t with dph := dphLoad } := by
  simp only [State.endCycle, State.setDigit, position, scnt]

/-- A cycle is four frames in the order of the positions, and LOAD after them (R158). -/
theorem State.Shows.sendCycle (h : s.Shows c v en pos) (position : s.didx = 0#2) :
    s.sendCycle = { (((s.sendFrame (slotWord c v en pos 0#2)).sendFrame (slotWord c v en pos 1#2)).sendFrame
      (slotWord c v en pos 2#2)).sendFrame (slotWord c v en pos 3#2) with dph := dphLoad } := by
  have slot0 : s.sendSlot 0#2 = (s.sendFrame (slotWord c v en pos 0#2)).setDigit 0#2 := h.setDigit_sendSlot s.didx 0#2
  have sent1 := h.sendFrame (slotWord c v en pos 0#2)
  have sent2 := sent1.sendFrame (slotWord c v en pos 1#2)
  have sent3 := sent2.sendFrame (slotWord c v en pos 2#2)
  rw [State.sendCycle, slot0, sent1.setDigit_sendSlot, sent2.setDigit_sendSlot, sent3.setDigit_sendSlot]
  exact State.endCycle_setDigit (by simp only [State.sendFrame_didx, position]) rfl 3#2

end

/-- Settles O23: the capture, and the four frames of its cycle. -/
theorem renderSendsFourFramesInOrder : Obligations.RenderSendsFourFramesInOrder := by
  intro s v en pos h
  have legal0 := h.capture v en pos
  have legal1 := legal0.sendFrame (slotWord s.cfg v en pos 0#2)
  have legal2 := legal1.sendFrame (slotWord s.cfg v en pos 1#2)
  have legal3 := legal2.sendFrame (slotWord s.cfg v en pos 2#2)
  refine ⟨s.capture (digits v) en pos, _, _, _, _, ?capture, legal0.exec_writeFrame .., legal1.exec_writeFrame ..,
    legal2.exec_writeFrame .., legal3.exec_writeFrame .., ?render⟩
  case capture => rw [← digits_eq]; rfl
  case render => exact (h.exec_render v en pos).trans (congrArg _ ((s.capture_shows v en pos).sendCycle rfl))

end Sys2Proof.Machine
end

section
/-! PROOFS. The clocked multiplex cycle (R163): a slot is a frame and a settle interval, four of them after a LOAD edge end where
the one operation does, and each frame's last action shows its digit. -/
namespace Sys2Proof.Machine

/-! ### One slot -/

theorem State.EngineLegal.exec_displayOp_of_settle {s : State} (h : s.EngineLegal) (settle : s.dph = dphSettle) :
    exec s.displayOp s = .next s.settleStep := by
  have op : s.displayOp = .settle s.inputs.srcSel := by rw [s.displayOp_eq, settle]; rfl
  rw [op, h.exec_settle]

/-- The edges left in a settle interval count, and the last one ends it (R156). -/
theorem State.EngineLegal.engineRun_restOfSettle {s : State} (h : s.EngineLegal) (settle : s.dph = dphSettle) {k : Nat}
    (left : s.scnt + 1 + k = s.cfg.settleCycles) : engineRun (k + 1) s = .next s.endSettle := by
  induction k generalizing s with
  | zero =>
    rw [engineRun_succ 0 (h.exec_displayOp_of_settle settle), s.settleStep_eq, if_pos left]
    rfl
  | succ k ih =>
    have counted := exec_keeps_engineLegal h (h.exec_displayOp_of_settle settle)
    rw [engineRun_succ (k + 1) (h.exec_displayOp_of_settle settle)]
    rw [s.settleStep_eq, if_neg (by omega)] at counted ⊢
    exact ih counted settle (by rw [State.countSettle_scnt, State.countSettle_cfg]; omega)

/-- `s` stands at the first edge of the slot of position `i`. -/
structure State.AtSlot (s : State) (i : BitVec 2) : Prop where
  legal : s.EngineLegal
  shift : s.dph = dphShift
  action : s.sph = sphLatchLo
  first : s.pcnt = 0
  position : s.didx = i

theorem State.EngineLegal.capture_atSlot {s : State} (h : s.EngineLegal) (v : BitVec 16) (en : Bool) (pos : BitVec 2) :
    (s.capture (digits v) en pos).AtSlot 0#2 := ⟨h.capture v en pos, rfl, rfl, rfl, rfl⟩

theorem State.AtSlot.atAction {s : State} {i : BitVec 2} {w : Frame} (h : s.AtSlot i) (word : s.curWord = .ok w) :
    s.AtAction w 0 := by
  obtain ⟨legal, shift, action, first, -⟩ := h
  have ⟨_, _, _, _, _, sbit⟩ := legal
  exact ⟨legal, shift, first, by rw [action, sbit (.inl action)]; rfl, word⟩

/-- At its own position the slot within RENDER is the frame of the current word. -/
theorem State.AtSlot.sendSlot_eq {s : State} {i : BitVec 2} {w : Frame} (h : s.AtSlot i) (word : s.curWord = .ok w) :
    s.sendSlot i = s.sendFrame w := by
  obtain ⟨-, -, -, -, rfl⟩ := h
  have word : (s.setDigit s.didx).curWord = .ok w := word
  simp only [State.sendSlot, word]
  rfl

/-- A slot is the frame of its position and the whole settle interval after it (R155, R156, R264). -/
theorem State.AtSlot.engineRun_slot {s : State} {i : BitVec 2} (h : s.AtSlot i) :
    engineRun (50 * s.cfg.phaseCycles + s.cfg.settleCycles) s =
      .next (if i = 3#2 then (s.sendSlot i).endCycle else (s.sendSlot i).nextSlot) := by
  obtain ⟨w, word⟩ := h.legal.curWord
  have sent := h.legal.sendFrame w
  have ⟨_, _, _, below, _⟩ := sent
  rw [State.sendFrame_cfg] at below
  obtain ⟨k, hk⟩ : ∃ k, s.cfg.settleCycles = k + 1 := Nat.exists_eq_add_one.mpr (Nat.zero_lt_of_lt below)
  have settled : engineRun (k + 1) (s.sendFrame w) = .next (s.sendFrame w).endSettle := by
    refine sent.engineRun_restOfSettle rfl ?_
    rw [State.sendFrame_cfg, hk]
    exact Nat.add_comm 1 k
  rw [engineRun_add _ (h.atAction word).engineRun_frame, hk, settled, h.sendSlot_eq word, State.endSettle,
    State.sendFrame_didx, h.position]

/-- A slot but the last leads to the first edge of the next one (R156). -/
theorem State.AtSlot.nextSlot {s : State} {i : BitVec 2} (h : s.AtSlot i) : (s.sendSlot i).nextSlot.AtSlot (i + 1#2) := by
  obtain ⟨w, word⟩ := h.legal.curWord
  refine ⟨(h.legal.sendSlot i).nextSlot, rfl, rfl, rfl, ?_⟩
  rw [State.nextSlot_didx, h.sendSlot_eq word, State.sendFrame_didx, h.position]

/-! ### The slots of a cycle -/

/-- Where the clocked engine starts the slot of position `k`, from the first edge of the first slot. -/
def State.slotStart (s : State) : Nat → State
  | 0 => s
  | k + 1 => ((s.slotStart k).sendSlot (BitVec.ofNat 2 k)).nextSlot

/-- By induction on the slots (R163). -/
theorem State.AtSlot.engineRun_slotStart {s : State} (h : s.AtSlot 0#2) {k : Nat} (hk : k ≤ 3) :
    engineRun (k * (50 * s.cfg.phaseCycles + s.cfg.settleCycles)) s = .next (s.slotStart k) ∧
      (s.slotStart k).AtSlot (BitVec.ofNat 2 k) ∧ (s.slotStart k).cfg = s.cfg := by
  induction k with
  | zero => exact ⟨by rw [Nat.zero_mul]; rfl, h, rfl⟩
  | succ k ih =>
    obtain ⟨run, place, cfg⟩ := ih (by omega)
    have notLast : BitVec.ofNat 2 k ≠ 3#2 := fun e => by
      have := congrArg BitVec.toNat e
      simp only [BitVec.toNat_ofNat] at this
      omega
    have slot := place.engineRun_slot
    rw [cfg, if_neg notLast] at slot
    refine ⟨?_, ?_, (EngineFrame.sendSlot _ _).cfg.trans cfg⟩
    · rw [Nat.succ_mul]
      exact (engineRun_add _ run).trans slot
    · rw [BitVec.ofNat_add]
      exact place.nextSlot

/-- The move to the next slot writes nothing that a slot reads. -/
theorem State.EngineLegal.nextSlot_sendSlot {s : State} (h : s.EngineLegal) (i : BitVec 2) :
    s.nextSlot.sendSlot i = s.sendSlot i := by
  obtain ⟨w, word⟩ := (h.setDigit i).curWord
  have word' : (s.nextSlot.setDigit i).curWord = .ok w := word
  simp only [State.sendSlot, word, word']
  rw [(s.setDigit i).sendFrame_eq_withLines]
  exact (s.nextSlot.setDigit i).withLines_sendFrame (s.setDigit i) w

/-- A whole cycle after its LOAD edge (R158, R163). -/
theorem State.AtSlot.engineRun_cycle {s : State} (h : s.AtSlot 0#2) :
    engineRun (4 * (50 * s.cfg.phaseCycles + s.cfg.settleCycles)) s = .next s.sendCycle := by
  obtain ⟨run, place, cfg⟩ := h.engineRun_slotStart (Nat.le_refl 3)
  have slot0 := h.legal.sendSlot 0#2
  have slot1 := slot0.sendSlot 1#2
  have slot2 := slot1.sendSlot 2#2
  have last := place.engineRun_slot
  have frames : ((s.slotStart 3).sendSlot 3#2).endCycle = s.sendCycle := by
    simp only [State.slotStart, State.sendCycle]
    rw [slot0.nextSlot_sendSlot, slot1.nextSlot_sendSlot, slot2.nextSlot_sendSlot]
  rw [cfg, if_pos rfl, frames] at last
  rw [show 4 * (50 * s.cfg.phaseCycles + s.cfg.settleCycles) = 3 * (50 * s.cfg.phaseCycles + s.cfg.settleCycles) +
    (50 * s.cfg.phaseCycles + s.cfg.settleCycles) by omega]
  exact (engineRun_add _ run).trans last

/-! ### A cycle from its LOAD edge -/

theorem State.EngineLegal.exec_displayOp_of_loadExt {s : State} (h : s.EngineLegal) (load : s.dph = dphLoad)
    (source : s.inputs.srcSel = true) :
    exec s.displayOp s = .next (s.capture (digits s.inputs.extValue) s.inputs.extDpEn s.inputs.extDpPos) := by
  have op : s.displayOp = .loadExt := by simp [s.displayOp_eq, load, source]
  rw [op, h.exec_loadExt]

/-- After a LOAD edge that captures, the cycle ends where RENDER of the captured value does (R158, R163). -/
theorem State.EngineLegal.engineRun_render {s : State} (h : s.EngineLegal) {v : BitVec 16} {en : Bool} {pos : BitVec 2}
    (load : exec s.displayOp s = .next (s.capture (digits v) en pos)) :
    engineRun (1 + 4 * (50 * s.cfg.phaseCycles + s.cfg.settleCycles)) s = exec (.render v en pos) s := by
  rw [Nat.add_comm, engineRun_succ _ load, h.exec_render]
  exact (h.capture_atSlot v en pos).engineRun_cycle

/-- Settles O25: either pseudo-operation is the RENDER of what its LOAD edge captures (R84). -/
theorem clockedCycleRefinesRender : Obligations.ClockedCycleRefinesRender := by
  intro s h load
  obtain ⟨clock, external⟩ := pseudoOperationsExpandToRender s h
  constructor
  · intro source inRange
    obtain ⟨t, operation, render, -⟩ := clock inRange
    have capture := inRange.exec_displayOp_of_loadTime h load source
    rw [s.timeValue_eq_ofNat] at capture
    exact ⟨t, operation, (h.engineRun_render capture).trans render⟩
  · intro source
    obtain ⟨t, operation, render, -⟩ := external
    exact ⟨t, operation, (h.engineRun_render (h.exec_displayOp_of_loadExt load source)).trans render⟩

/-! ### Where each digit is shown -/

/-- The first edge of LATCH_HI raises the latch and shows what the chain holds (R126, R134). -/
theorem State.serStep_of_latchHi {s : State} (action : s.sph = sphLatchHi) (first : s.pcnt = 0) (low : s.slatch = false) :
    s.serStep.slatch = true ∧ s.serStep.recv.out = s.recv.sr := by
  have kept : LinesKept s.performed s.serStep := LinesKept.advance s.performed
  rw [State.performed_of_first first, State.lineAction_of_latchHi action, State.latchHi_eq, low] at kept
  exact ⟨kept.slatch, congrArg Receiver.out kept.recv⟩

/-- With the clock low, 49 phases of a frame leave the latch low and the word in the chain, and the next edge shows it
(R133, R134). -/
theorem State.AtAction.engineRun_shows {s : State} {w : Frame} (h : s.AtAction w 0) (clockLow : s.sclk = false) :
    ∃ u t, engineRun (49 * s.cfg.phaseCycles) s = .next u ∧ u.slatch = false ∧ exec u.displayOp u = .next t ∧
      t.slatch = true ∧ t.recv.out = w := by
  obtain ⟨upToLatchHi, at49⟩ := h.engineRun_upToLatchHi
  have lines : s.latchLo.pulses w 16 = _ := pulses_eq w (List.range 16) s.latchLo clockLow
  have low : ((s.latchLo.pulses w 16).toAction 49).slatch = false := by
    rw [State.toAction, State.setAction_slatch, lines]
    rfl
  have chain : ((s.latchLo.pulses w 16).toAction 49).recv.sr = w := by
    rw [State.toAction, State.setAction_recv, lines]
    exact bitsInto_word w _
  obtain ⟨high, out⟩ := State.serStep_of_latchHi (at49.position rfl rfl).1 at49.first low
  exact ⟨_, _, upToLatchHi, low, at49.legal.exec_displayOp_of_shift at49.shift, high, out.trans chain⟩

/-- A slot of RENDER leaves the clock low (R131). -/
theorem State.sendSlot_sclk {s : State} (clockLow : s.sclk = false) (i : BitVec 2) : (s.sendSlot i).sclk = false := by
  unfold State.sendSlot
  simp only
  split
  · rw [State.sendFrame, State.frameLines_eq (s.setDigit i) _ clockLow]
    exact clockLow
  · exact clockLow

theorem State.slotStart_sclk {s : State} (clockLow : s.sclk = false) (k : Nat) : (s.slotStart k).sclk = false := by
  induction k with
  | zero => exact clockLow
  | succ k ih => exact State.sendSlot_sclk ih _

/-- The captured value stays through the slots (R33). -/
theorem State.Shows.slotStart {s : State} {c : Config} {v : BitVec 16} {en : Bool} {pos : BitVec 2}
    (h : s.Shows c v en pos) (k : Nat) : (s.slotStart k).Shows c v en pos := by
  induction k with
  | zero => exact h
  | succ k ih =>
    obtain ⟨cfg, rdig, rdpen, rdppos⟩ := (ih.sendFrame (slotWord c v en pos (BitVec.ofNat 2 k))).setDigit (BitVec.ofNat 2 k)
    have slot := ih.setDigit_sendSlot (s.slotStart k).didx (BitVec.ofNat 2 k)
    rw [← slot] at cfg rdig rdpen rdppos
    exact ⟨cfg, rdig, rdpen, rdppos⟩

/-- R159 and R163 after a LOAD edge that captures: the edge at the offset of position `i` shows its digit. -/
theorem State.EngineLegal.engineRun_showsSlot {s : State} (h : s.EngineLegal) (clockLow : s.sclk = false) {v : BitVec 16}
    {en : Bool} {pos : BitVec 2} (load : exec s.displayOp s = .next (s.capture (digits v) en pos)) {k : Nat} (hk : k ≤ 3) :
    let offset := 1 + k * (50 * s.cfg.phaseCycles + s.cfg.settleCycles) + 49 * s.cfg.phaseCycles
    ∃ u t, engineRun offset s = .next u ∧ u.slatch = false ∧ engineRun (offset + 1) s = .next t ∧ t.slatch = true ∧
      t.recv.out = slotWord s.cfg v en pos (BitVec.ofNat 2 k) := by
  intro offset
  obtain ⟨slots, place, cfg⟩ := (h.capture_atSlot v en pos).engineRun_slotStart hk
  have word := ((s.capture_shows v en pos).slotStart k).curWord
  have stillLow : ((s.capture (digits v) en pos).slotStart k).sclk = false :=
    State.slotStart_sclk (s := s.capture (digits v) en pos) clockLow k
  obtain ⟨u, t, phases, low, edge, high, out⟩ := (place.atAction word).engineRun_shows stillLow
  rw [cfg] at phases
  have before : engineRun offset s = .next u := by
    rw [show offset = k * (50 * s.cfg.phaseCycles + s.cfg.settleCycles) + 49 * s.cfg.phaseCycles + 1 by omega,
      engineRun_succ _ load]
    exact (engineRun_add _ slots).trans phases
  rw [place.position] at out
  exact ⟨u, t, before, low, (engineRun_add 1 before).trans (engineRun_succ 0 edge), high, out⟩

/-- Settles O26: both sources capture the digits of `v`. -/
theorem digitLatchesAtItsOffset : Obligations.DigitLatchesAtItsOffset := by
  intro s i v en pos h load clockLow source offset
  obtain ⟨value, rfl, capture⟩ : ∃ value : BitVec 16, value.toNat = v ∧
      exec s.displayOp s = .next (s.capture (digits value) en pos) := by
    rcases source with ⟨external, rfl, rfl, rfl⟩ | ⟨time, inRange, rfl, rfl, rfl⟩
    · exact ⟨_, rfl, h.exec_displayOp_of_loadExt load external⟩
    · exact ⟨_, s.timeValue_toNat, inRange.exec_displayOp_of_loadTime h load time⟩
  have shown := h.engineRun_showsSlot clockLow capture (k := i.val) (by omega)
  have position : BitVec.ofNat 2 i.val = BitVec.ofFin i := BitVec.eq_of_toNat_eq (Nat.mod_eq_of_lt i.isLt)
  rw [position] at shown
  exact shown

end Sys2Proof.Machine
end

section
/-! PROOFS. Outside a LOAD edge the display engine does not read the time (R164, R225): its operation commutes with a write of SEC and
MIN. -/
namespace Sys2Proof.Machine

/-- From legal codes a SHIFT edge's line action is the same whatever the time is (R164). -/
theorem State.EngineLegal.performed_setTime {s : State} (h : s.EngineLegal) (sec : BitVec 6) (min : BitVec 7) :
    (s.setTime sec min).performed = s.performed.setTime sec min := by
  have h' : (s.setTime sec min).EngineLegal := h
  obtain ⟨w, word, lines⟩ := h.performed_eq
  obtain ⟨w', word', lines'⟩ := h'.performed_eq
  have sameWord : w' = w := Except.ok.inj (word'.symm.trans word)
  rw [lines', lines, sameWord]
  rfl

theorem State.advance_setTime (s : State) (sec : BitVec 6) (min : BitVec 7) :
    (s.setTime sec min).advance = s.advance.setTime sec min := by
  rw [State.advance_eq, s.advance_eq, State.endPhase, State.endPhase, State.setTime_sph, State.setTime_sbit,
    State.setTime_pcnt, State.setTime_cfg]
  by_cases last : s.pcnt + 1 = s.cfg.phaseCycles
  · rw [if_pos last, if_pos last]
    cases nextAction s.sph s.sbit <;> rfl
  · rw [if_neg last, if_neg last]
    rfl

theorem State.settleStep_setTime (s : State) (sec : BitVec 6) (min : BitVec 7) :
    (s.setTime sec min).settleStep = s.settleStep.setTime sec min := by
  simp only [State.settleStep, apply_ite fun t : State => t.setTime sec min]
  rfl

/-- A SHIFT or SETTLE edge of the engine commutes with a write of the time (R164). -/
theorem State.EngineLegal.exec_displayOp_setTime {s : State} (h : s.EngineLegal) (notLoad : s.dph ≠ dphLoad)
    (sec : BitVec 6) (min : BitVec 7) : ∃ d, exec s.displayOp s = .next d ∧
      exec (s.setTime sec min).displayOp (s.setTime sec min) = .next (d.setTime sec min) := by
  have h' : (s.setTime sec min).EngineLegal := h
  have ⟨notReserved, _⟩ := h
  have phases : ∀ p : BitVec 2, p ≠ dphReserved → p ≠ dphLoad → p = dphShift ∨ p = dphSettle := by decide
  rcases phases s.dph notReserved notLoad with shift | settle
  · refine ⟨_, h.exec_displayOp_of_shift shift, ?_⟩
    rw [h'.exec_displayOp_of_shift shift, State.serStep_eq, h.performed_setTime, State.advance_setTime]
    rfl
  · refine ⟨_, h.exec_displayOp_of_settle settle, ?_⟩
    rw [h'.exec_displayOp_of_settle settle, State.settleStep_setTime]

/-- At one edge outside LOAD, states that differ in the time alone go to states that differ in the time alone, or POR resets both
(R250). -/
theorem clockEdge_setTime {u t : State} (inRange : u.TimeInRange) (legal : u.EngineLegal) (notLoad : u.dph ≠ dphLoad)
    {sec : BitVec 6} {min : BitVec 7} (inRange' : (u.setTime sec min).TimeInRange) (edge : clockEdge u = .next t) :
    ∃ sec' min', clockEdge (u.setTime sec min) = .next (t.setTime sec' min') := by
  have legal' : (u.setTime sec min).EngineLegal := legal
  cases por : u.inputs.rstN with
  | false =>
    have resets {v : State} (hv : v.inputs.rstN = false) : clockEdge v = .next v.blockReset.countEdge := by
      rcases clockEdge_cases v with ⟨-, e⟩ | ⟨out, -⟩
      · exact e
      · rw [hv] at out
        cases out
    rw [resets por] at edge
    cases edge
    exact ⟨0#6, 0#7, resets por⟩
  | true =>
    obtain ⟨a, b, -, display, -, -, quiet⟩ := clockEdge_of_legal inRange legal por
    obtain ⟨a', b', -, display', -, -, quiet'⟩ := clockEdge_of_legal inRange' legal' por
    obtain ⟨d, engine, engine'⟩ := legal.exec_displayOp_setTime notLoad sec min
    rw [engine] at display
    rw [engine'] at display'
    cases display
    cases display'
    rw [quiet] at edge
    cases edge
    exact ⟨a'.sec, a'.min, quiet'⟩

/-- Settles O52. -/
theorem displayIgnoresTimeBetweenLoads : Obligations.DisplayIgnoresTimeBetweenLoads := by
  rintro s t x rest sec min ⟨valid, inRange, legal⟩ hf hsec hmin notLoad hs e
  rw [step_of_edge valid hf hs] at e
  obtain ⟨sec', min', edge'⟩ := clockEdge_setTime (u := s.sample x rest) inRange legal notLoad ⟨hsec, hmin⟩ e
  exact ⟨_, (step_of_edge (s := s.setTime sec min) valid hf hs).trans edge', rfl⟩

end Sys2Proof.Machine
end

section
/-! PROOFS. The operations of TIME (R190 to R192, R196, R199): what each does within the range and outside it, what no other unit
writes (R197), and the count that ticks make (R194). -/
namespace Sys2Proof.Machine

/-! ### Within the range and outside it -/

theorem State.not_timeInRange_iff (s : State) : ¬s.TimeInRange ↔ 60 ≤ s.sec.toNat ∨ 100 ≤ s.min.toNat := by
  rw [State.TimeInRange]
  omega

theorem State.TimeInRange.exec_tick {s : State} (h : s.TimeInRange) :
    exec .tick s = .next (s.setTime (nextSec s.sec) (nextMin s.sec s.min)) := by
  simp only [exec, execTick, (timeFaults_eq_nil s).mpr h, State.unlessFault_nil]

theorem State.TimeInRange.exec_thold {s : State} (h : s.TimeInRange) : exec .thold s = .next s := by
  simp only [exec, execThold, (timeFaults_eq_nil s).mpr h, State.unlessFault_nil]

theorem exec_tick_of_outOfRange {s : State} (h : ¬s.TimeInRange) :
    exec .tick s = .next (s.raise [.timeInv s.min s.sec]) := by
  simp only [exec, execTick, timeFaults_of_not h, State.unlessFault]

theorem exec_thold_of_outOfRange {s : State} (h : ¬s.TimeInRange) :
    exec .thold s = .next (s.raise [.timeInv s.min s.sec]) := by
  simp only [exec, execThold, timeFaults_of_not h, State.unlessFault]

/-! ### The registers after a tick -/

theorem nextSec_of_ne {sec : BitVec 6} (h : sec.toNat ≠ 59) : nextSec sec = BitVec.ofNat 6 (sec.toNat + 1) :=
  if_neg fun wrap => h (Nat.succ.inj wrap)

theorem nextSec_of_eq {sec : BitVec 6} (h : sec.toNat = 59) : nextSec sec = 0#6 := if_pos (congrArg Nat.succ h)

theorem nextMin_of_ne {sec : BitVec 6} (h : sec.toNat ≠ 59) (min : BitVec 7) : nextMin sec min = min :=
  if_neg fun wrap => h (Nat.succ.inj wrap)

theorem nextMin_of_eq {sec : BitVec 6} (h : sec.toNat = 59) (min : BitVec 7) :
    nextMin sec min = if min.toNat + 1 = minMod then 0#7 else BitVec.ofNat 7 (min.toNat + 1) := if_pos (congrArg Nat.succ h)

/-- Settles O27: in each clause the time is in range or it is not, and the seconds wrap or they do not. -/
theorem tickCountsOneSecond : Obligations.TickCountsOneSecond := by
  intro s
  refine ⟨fun sec min => ?noCarry, fun sec min => ?carry, fun sec min => ?wrap, fun outOfRange => ?record⟩
  case noCarry =>
    have inRange : s.TimeInRange := ⟨by omega, min⟩
    rw [inRange.exec_tick, nextSec_of_ne (by omega), nextMin_of_ne (by omega)]
    rfl
  case carry =>
    have inRange : s.TimeInRange := ⟨by omega, by omega⟩
    have noWrap : s.min.toNat + 1 ≠ minMod := by rw [minMod]; omega
    rw [inRange.exec_tick, nextSec_of_eq sec, nextMin_of_eq sec, if_neg noWrap]
    rfl
  case wrap =>
    have inRange : s.TimeInRange := ⟨by omega, by omega⟩
    have wraps : s.min.toNat + 1 = minMod := congrArg Nat.succ min
    rw [inRange.exec_tick, nextSec_of_eq sec, nextMin_of_eq sec, if_pos wraps]
    rfl
  case record =>
    rw [exec_tick_of_outOfRange (s.not_timeInRange_iff.mpr outOfRange), State.raise_single]

/-- Settles O28: TRESET has no range check. -/
theorem tresetClearsTheTime : Obligations.TresetClearsTheTime := fun _ _ => rfl

/-- Settles O29. -/
theorem tholdKeepsTheTime : Obligations.TholdKeepsTheTime := fun s =>
  ⟨State.TimeInRange.exec_thold, fun h => by rw [exec_thold_of_outOfRange h, s.raise_single]⟩

/-- Settles O30. -/
theorem snapshotReadsBothFields : Obligations.SnapshotReadsBothFields := fun _ => ⟨rfl, rfl, rfl⟩

/-! ### Who writes the time, and what TIME writes -/

/-- A write of the time under a fault condition touches the time and the record only. -/
theorem State.unlessFault_setTime_frame (s : State) (cs : List FaultCause) (sec : BitVec 6) (min : BitVec 7) :
    let t := s.unlessFault cs (s.setTime sec min)
    t = { s with sec := t.sec, min := t.min, faults := t.faults } := by
  intro t
  rcases s.unlessFault_cases (s.setTime sec min) cs with ⟨-, e⟩ | ⟨-, e⟩ <;> rw [show t = _ from e] <;> rfl

/-- Settles O35: TICK, THOLD and TRESET are each such a write, THOLD of the time as it stands and TRESET under no condition. -/
theorem unitsWriteDisjointRegisters : Obligations.UnitsWriteDisjointRegisters := by
  refine fun i s t e => ⟨?_, fun tag => exec_keeps_time tag e⟩
  rintro (rfl | rfl | ⟨b, rfl⟩) <;> cases e
  · exact s.unlessFault_setTime_frame (timeFaults s) (nextSec s.sec) (nextMin s.sec s.min)
  · exact s.unlessFault_setTime_frame (timeFaults s) s.sec s.min
  · exact s.unlessFault_setTime_frame [] 0#6 0#7

/-- Settles O33: the next item is a clock edge or one operation, and both keep the range. -/
theorem timeRangeIsKept : Obligations.TimeRangeIsKept := by
  refine ⟨fun s t h e => ?step, fun s t a b e => ?por, by decide⟩
  case step =>
    obtain ⟨-, -, run⟩ := step_next e
    rcases State.runNext_cases run with ⟨x, rest, edge⟩ | ⟨i, rest, op⟩
    · exact clockEdge_keeps (u := s.sample x rest) State.TimeInRange (hexec := fun _ _ _ => exec_keeps_timeInRange)
        (hload := fun v hv => hv.congr ⟨(EngineFrame.loadTime v []).sec, (EngineFrame.loadTime v []).min⟩)
        (hjoin := fun _ _ time _ => time) (hraise := fun _ _ hv => hv) (hcount := fun _ hv => hv) h edge
    · exact exec_keeps_timeInRange (s := { s with stim := rest }) h op
  case por =>
    have cleared : (0#6).toNat < 60 ∧ (0#7).toNat < 100 := by decide
    cases e
    exact cleared

/-! ### The count of ticks -/

/-- SEC and MIN as numbers. -/
def State.time (s : State) : Nat × Nat := (s.sec.toNat, s.min.toNat)

/-- The time one second on, wrapping at 60 seconds and 100 minutes (R190). -/
def secondAfter (time : Nat × Nat) : Nat × Nat := ((time.1 + 1) % 60, (time.2 + (time.1 + 1) / 60) % 100)

/-- What the clock shows `n` seconds after 0, 0 (R194). -/
def timeOfCount (n : Nat) : Nat × Nat := (n % 60, n / 60 % 100)

/-- A minute is carried exactly when `n + 1` is a multiple of 60. -/
theorem secondAfter_timeOfCount (n : Nat) : secondAfter (timeOfCount n) = timeOfCount (n + 1) := by
  have sec : (n % 60 + 1) % 60 = (n + 1) % 60 := by omega
  have min : (n / 60 % 100 + (n % 60 + 1) / 60) % 100 = (n + 1) / 60 % 100 := by omega
  exact Prod.ext sec min

theorem State.TimeInRange.time_tick {s : State} (h : s.TimeInRange) :
    (s.setTime (nextSec s.sec) (nextMin s.sec s.min)).time = secondAfter s.time :=
  Prod.ext (nextTime_spec h).1 (nextTime_spec h).2

theorem State.timeInRange_of_count {s : State} {n : Nat} (h : s.time = timeOfCount n) : s.TimeInRange := by
  have sec : s.sec.toNat = n % 60 := congrArg Prod.fst h
  have min : s.min.toNat = n / 60 % 100 := congrArg Prod.snd h
  rw [State.TimeInRange, sec, min]
  exact ⟨Nat.mod_lt _ (by decide), Nat.mod_lt _ (by decide)⟩

theorem repeatOp_succ {i : Instr} {s t : State} (n : Nat) (h : exec i s = .next t) :
    repeatOp i (n + 1) s = repeatOp i n t := by
  rw [repeatOp, h]

/-- Ticks add to the count and write nothing else; by induction on them. -/
theorem repeatOp_tick {s : State} {k : Nat} (h : s.time = timeOfCount k) (n : Nat) :
    ∃ sec min, repeatOp .tick n s = .next (s.setTime sec min) ∧ (s.setTime sec min).time = timeOfCount (k + n) := by
  induction n generalizing s k with
  | zero => exact ⟨s.sec, s.min, rfl, h⟩
  | succ n ih =>
    have inRange := State.timeInRange_of_count h
    have counted := inRange.time_tick.trans (h ▸ secondAfter_timeOfCount k)
    obtain ⟨sec, min, run, time⟩ := ih counted
    exact ⟨sec, min, (repeatOp_succ n inRange.exec_tick).trans run, time.trans (by rw [Nat.add_right_comm]; rfl)⟩

/-- Settles O31: 0, 0 is the count 0. -/
theorem ticksCloseForm : Obligations.TicksCloseForm := by
  intro s n sec0 min0
  have zero : s.time = timeOfCount 0 := by rw [State.time, sec0, min0]; rfl
  obtain ⟨sec, min, run, time⟩ := repeatOp_tick zero n
  rw [Nat.zero_add] at time
  have hsec : sec.toNat = n % 60 := congrArg Prod.fst time
  have hmin : min.toNat = n / 60 % 100 := congrArg Prod.snd time
  rw [run, ← hsec, ← hmin, BitVec.ofNat_toNat, BitVec.ofNat_toNat, BitVec.setWidth_eq, BitVec.setWidth_eq]
  rfl

end Sys2Proof.Machine
end

section
/-! PROOFS. The time along the clock edges of a run: the priority of R193 at one edge, and over many edges the count of R195, which
no display phase and no other input enters. -/
namespace Sys2Proof.Machine

/-! ### One edge -/

/-- The time after an edge with these inputs, in the priority POR, TRESET, TICK, THOLD (R193). -/
def Inputs.timeAfter (x : Inputs) (time : Nat × Nat) : Nat × Nat :=
  if x.rstN = false then (0, 0) else if x.treset = true then (0, 0) else if x.tick = true then secondAfter time else time

theorem Inputs.timeAfter_of_por {x : Inputs} (h : x.rstN = false) (time : Nat × Nat) : x.timeAfter time = (0, 0) := if_pos h

theorem Inputs.timeAfter_of_treset {x : Inputs} (h : x.treset = true) (time : Nat × Nat) : x.timeAfter time = (0, 0) := by
  rw [Inputs.timeAfter, if_pos h, ite_self]

theorem Inputs.timeAfter_of_count {x : Inputs} (hr : x.rstN = true) (hx : x.treset = false) (time : Nat × Nat) :
    x.timeAfter time = if x.tick = true then secondAfter time else time := by
  rw [Inputs.timeAfter, if_neg (by simp [hr]), if_neg (by simp [hx])]

/-- TIME's half of an edge out of POR, the time in range. -/
theorem State.TimeInRange.time_timeOp {s t : State} (h : s.TimeInRange) (hr : s.inputs.rstN = true)
    (e : exec s.timeOp s = .next t) : t.time = s.inputs.timeAfter s.time := by
  rcases exec_timeOp_cases hr e with ⟨treset, rfl⟩ | ⟨noTreset, -, rfl⟩ | ⟨-, outOfRange, -⟩
  · exact (Inputs.timeAfter_of_treset treset _).symm
  · rw [Inputs.timeAfter_of_count hr noTreset]
    split
    · exact h.time_tick
    · rfl
  · exact absurd h outOfRange

/-- A clock edge from a legal state takes the time where its inputs say, whatever the display engine does, and records nothing
(R193, R221). -/
theorem State.Legal.clockEdge_time {u : State} (h : u.Legal) :
    ∃ t, clockEdge u = .next t ∧ t.faults = u.faults ∧ t.stim = u.stim ∧ t.time = u.inputs.timeAfter u.time := by
  obtain ⟨-, inRange, engine⟩ := h
  rcases clockEdge_cases u with ⟨por, edge⟩ | ⟨outOfPor, -⟩
  · exact ⟨_, edge, rfl, rfl, (Inputs.timeAfter_of_por por _).symm⟩
  · obtain ⟨a, d, time, display, -, quiet, edge⟩ := clockEdge_of_legal inRange engine outOfPor
    obtain ⟨-, -, stim, -⟩ := exec_environment display
    have counted : a.time = u.inputs.timeAfter u.time := inRange.time_timeOp outOfPor time
    exact ⟨_, edge, quiet, stim, counted⟩

/-- The same for a listed edge as a step, which leaves the state fit for the next one. -/
theorem State.Legal.step_time {s : State} {x : Inputs} {rest : List Stimulus} (h : s.Legal) (hf : s.faults = [])
    (hs : s.stim = .edge x :: rest) :
    ∃ t, step s = .next t ∧ t.Legal ∧ t.faults = [] ∧ t.stim = rest ∧ t.time = x.timeAfter s.time := by
  have sampled : (s.sample x rest).Legal := h
  obtain ⟨t, edge, faults, stim, time⟩ := sampled.clockEdge_time
  have ⟨valid, _⟩ := h
  exact ⟨t, (step_of_edge valid hf hs).trans edge, clockEdge_keeps_legal sampled edge, faults.trans hf, stim, time⟩

/-- Settles O34. -/
theorem resetOverTickAtOneEdge : Obligations.ResetOverTickAtOneEdge := by
  intro s x rest h hf hs
  obtain ⟨t, e, -, -, -, time⟩ := h.step_time hf hs
  exact ⟨t, e, time⟩

/-! ### Many edges -/

/-- The time after edges with these inputs, first edge first. -/
def timeAfterEdges (ins : List Inputs) (time : Nat × Nat) : Nat × Nat := ins.foldl (fun time x => x.timeAfter time) time

theorem run_succ_of_step {M : Host.Core} {s t : M.State} (k : Nat) (h : M.step s = .next t) : M.run (k + 1) s = M.run k t := by
  rw [Host.Core.run, h]

/-- The clocked machine shows what the time inputs alone make of the time; by induction on the edges (R62, R193). -/
theorem State.Legal.run_time {s : State} {ins : List Inputs} {rest : List Stimulus} (h : s.Legal) (hf : s.faults = [])
    (hs : s.stim = ins.map .edge ++ rest) :
    ∃ t, Host.Core.run core ins.length s = .next t ∧ t.stim = rest ∧ t.time = timeAfterEdges ins s.time := by
  induction ins generalizing s with
  | nil => exact ⟨s, rfl, hs, rfl⟩
  | cons x ins ih =>
    obtain ⟨u, e, legal, faults, stim, time⟩ := h.step_time hf hs
    obtain ⟨t, run, done, total⟩ := ih legal faults stim
    exact ⟨t, (run_succ_of_step (M := core) ins.length e).trans run, done, total.trans (congrArg (timeAfterEdges ins) time)⟩

/-- Edges with no reset add their ticks to the count; by induction on them (R195). -/
theorem timeAfterEdges_timeOfCount {ins : List Inputs} (h : ∀ y ∈ ins, y.rstN = true ∧ y.treset = false) (k : Nat) :
    timeAfterEdges ins (timeOfCount k) = timeOfCount (k + ins.countP (·.tick)) := by
  induction ins generalizing k with
  | nil => rfl
  | cons y ins ih =>
    obtain ⟨⟨hr, hx⟩, later⟩ := List.forall_mem_cons.mp h
    rw [timeAfterEdges, List.foldl_cons, ← timeAfterEdges, Inputs.timeAfter_of_count hr hx]
    cases tick : y.tick
    · rw [if_neg (by decide), ih later, List.countP_cons_of_neg (by simp [tick])]
    · rw [if_pos rfl, secondAfter_timeOfCount, ih later, List.countP_cons_of_pos tick, Nat.add_right_comm, Nat.add_assoc]

/-- Settles O32: the reset edge shows the count 0, and the edges after it add their ticks. -/
theorem countSinceTheLastReset : Obligations.CountSinceTheLastReset := by
  intro s x ins rest h hf reset noReset hs
  have cleared : x.timeAfter s.time = timeOfCount 0 :=
    reset.elim (fun por => Inputs.timeAfter_of_por por _) fun treset => Inputs.timeAfter_of_treset treset _
  obtain ⟨t, run, done, time⟩ := h.run_time (ins := x :: ins) hf hs
  have count : t.time = timeOfCount (ins.countP (·.tick)) :=
    calc t.time = timeAfterEdges ins (x.timeAfter s.time) := time
      _ = timeOfCount (ins.countP (·.tick)) := by rw [cleared, timeAfterEdges_timeOfCount noReset, Nat.zero_add]
  obtain ⟨sec, min⟩ := Prod.ext_iff.mp count
  exact ⟨t, by rw [Nat.add_comm]; exact run, done, sec, min⟩

end Sys2Proof.Machine
end

section
/-! PROOFS. A clock edge with the time out of range (R199, R220 code 4): TICK and THOLD record it and nothing moves, TRESET and POR
clear it (log 5). -/
namespace Sys2Proof.Machine

/-- From legal codes the display engine's operation records nothing, unless it is a LOAD_TIME that meets the time out of range. -/
theorem exec_displayOp_faults {u d : State} (legal : u.EngineLegal) (e : exec u.displayOp u = .next d) :
    d.faults = u.faults ∨ (u.dph = dphLoad ∧ u.inputs.srcSel = false ∧ d = u.raise [.timeInv u.min u.sec]) := by
  rcases exec_displayOp_cases legal e with
    ⟨-, -, -, rfl⟩ | ⟨load, time, -, recorded⟩ | ⟨-, -, rfl⟩ | ⟨-, rfl⟩ | ⟨-, rfl⟩
  · exact .inl rfl
  · exact .inr ⟨load, time, recorded⟩
  · exact .inl rfl
  · exact .inl (serStep_faults legal)
  · exact .inl (settleStep_faults u)

/-- With TRESET the display half records nothing, and LOAD_TIME captures what the registers hold (R199, log 5). -/
theorem State.EngineLegal.displayUpdate_of_treset {u : State} (legal : u.EngineLegal) (treset : u.inputs.treset = true) :
    ∃ d, u.displayUpdate = .next d ∧ d.faults = u.faults ∧
      (u.dph = dphLoad → u.inputs.srcSel = false → d.rdig = digits u.timeValue) := by
  obtain ⟨d, hd⟩ := u.displayUpdate_next
  refine ⟨d, hd, ?_⟩
  rcases State.displayUpdate_cases hd with ⟨-, -, -, rfl⟩ | ⟨notLoadTime, op⟩
  · have capture : u.loadTime [] = u.capture (digits u.timeValue) true timeDpPos := by
      rw [State.loadTime, (engineFaults_eq_nil u).mpr legal, List.append_nil, State.unlessFault_nil]
    rw [capture]
    exact ⟨rfl, fun _ _ => rfl⟩
  · rcases exec_displayOp_faults legal op with quiet | ⟨load, time, -⟩
    · exact ⟨quiet, fun load time => absurd ⟨treset, load, time⟩ notLoadTime⟩
    · exact absurd ⟨treset, load, time⟩ notLoadTime

/-- TIME records it, and a LOAD_TIME at the same edge meets the same condition (R224: the record is a set). -/
theorem clockEdge_of_outOfRange {u : State} (legal : u.EngineLegal) (outOfRange : ¬u.TimeInRange)
    (hr : u.inputs.rstN = true) (hx : u.inputs.treset = false) :
    clockEdge u = .next (u.raise [.timeInv u.min u.sec]).countEdge := by
  rcases clockEdge_cases u with ⟨por, -⟩ | ⟨-, t, d, ht, hd, edge⟩
  · rw [hr] at por
    cases por
  have time : t = u.raise [.timeInv u.min u.sec] := by
    rcases exec_timeOp_cases hr ht with ⟨treset, -⟩ | ⟨-, inRange, -⟩ | ⟨-, -, recorded⟩
    · rw [hx] at treset
      cases treset
    · exact absurd inRange outOfRange
    · exact recorded
  have display : exec u.displayOp u = .next d := by
    rcases State.displayUpdate_cases hd with ⟨treset, -⟩ | ⟨-, op⟩
    · rw [hx] at treset
      cases treset
    · exact op
  have recorded : newCauses u t = [.timeInv u.min u.sec] := by rw [time, newCauses_raise, orderByCode_single]
  rw [edge, State.joinUnits, recorded]
  rcases exec_displayOp_faults legal display with quiet | ⟨-, -, rfl⟩
  · rw [newCauses_of_faults_eq quiet]
    rfl
  · rw [newCauses_raise, orderByCode_single]
    simp only [List.cons_append, List.nil_append, State.unlessFault, State.raise, orderByCode_pair_self, orderByCode_single]

/-- TRESET or POR clears the time from legal codes, in or out of range (R191, R199, R250). -/
theorem State.EngineLegal.clockEdge_of_reset {u : State} (legal : u.EngineLegal)
    (reset : ¬(u.inputs.rstN = true ∧ u.inputs.treset = false)) :
    ∃ t, clockEdge u = .next t ∧ t.sec = 0#6 ∧ t.min = 0#7 ∧ t.faults = u.faults ∧
      (u.inputs.rstN = true → u.dph = dphLoad → u.inputs.srcSel = false → t.rdig = digits u.timeValue) := by
  rcases clockEdge_cases u with ⟨por, edge⟩ | ⟨hr, t, d, ht, hd, edge⟩
  · exact ⟨_, edge, rfl, rfl, rfl, fun hr => absurd (por.symm.trans hr) (by decide)⟩
  have treset : u.inputs.treset = true := Bool.of_not_eq_false fun hx => reset ⟨hr, hx⟩
  have time : t = u.setTime 0#6 0#7 := by
    rcases exec_timeOp_cases hr ht with ⟨-, cleared⟩ | ⟨hx, -⟩ | ⟨hx, -⟩
    · exact cleared
    · exact absurd ⟨hr, hx⟩ reset
    · exact absurd ⟨hr, hx⟩ reset
  obtain ⟨d', hd', quiet, captured⟩ := legal.displayUpdate_of_treset treset
  cases hd.symm.trans hd'
  rw [time, State.joinUnits_quiet (State.setTime_faults ..) quiet] at edge
  exact ⟨_, edge, rfl, rfl, quiet, fun _ => captured⟩

/-- Settles O42. -/
theorem outOfRangeTimeIsRecorded : Obligations.OutOfRangeTimeIsRecorded := by
  intro s x rest valid legal hf outOfRange hs
  have engine : (s.sample x rest).EngineLegal := legal
  have notInRange : ¬(s.sample x rest).TimeInRange := s.not_timeInRange_iff.mpr outOfRange
  have edge := step_of_edge valid hf hs
  split
  case isTrue count =>
    rw [edge, clockEdge_of_outOfRange engine notInRange count.1 count.2, State.raise_single, State.sample_faults, hf]
    rfl
  case isFalse reset =>
    obtain ⟨t, run, sec, min, faults, captured⟩ := engine.clockEdge_of_reset reset
    refine ⟨t, edge.trans run, sec, min, faults.trans hf, fun hr load time => (captured hr load time).trans ?_⟩
    rw [digits_eq, State.timeValue_toNat]
    rfl

end Sys2Proof.Machine
end

section
/-! PROOFS. Contract violations (R220, R221): a legal state meets none at a clock edge, and a record once made stays and stops the
model. -/
namespace Sys2Proof.Machine

/-- Settles O41: the edge records nothing (`State.Legal.clockEdge_time`) and keeps legality, whatever inputs stand on the ports. -/
theorem legalEdgesNeverFault : Obligations.LegalEdgesNeverFault := by
  intro s legal quiet edge
  have ⟨valid, _⟩ := legal
  obtain ⟨x, rest, run, -⟩ := s.runNext_of_edge edge
  have sampled : (s.sample x rest).Legal := legal
  obtain ⟨t, next, faults, -⟩ := sampled.clockEdge_time
  exact ⟨t, (step_eq_runNext valid quiet).trans (run.trans next), faults.trans quiet, clockEdge_keeps_legal sampled next⟩

/-- Settles O44. -/
theorem recordedFaultsAreSticky : Obligations.RecordedFaultsAreSticky := by
  constructor
  · intro i s t h
    obtain ⟨-, -, -, -, recordGrows⟩ := exec_environment h
    exact recordGrows
  · intro s r l valid recorded
    exact step_of_recorded valid recorded

end Sys2Proof.Machine
end

section
/-! PROOFS. Reset and hazards (70_reset_and_hazards.md): an edge with RST_N = 0 from any state (R250, R252), the source inputs read
at a LOAD edge alone (R259), and one line at most that changes at an edge (R255). -/
namespace Sys2Proof.Machine

/-! ### An edge with RST_N = 0 -/

/-- A POR edge resets the block from any state, whatever else stands on the ports (R250). -/
theorem clockEdge_of_rstN_low {u : State} (por : u.inputs.rstN = false) : clockEdge u = .next u.blockReset.countEdge := by
  rcases clockEdge_cases u with ⟨-, edge⟩ | ⟨outOfPor, -⟩
  · exact edge
  · rw [por] at outOfPor
    cases outOfPor

/-- Settles O38: `blockReset` drives every line low, so the receiver sees no rise (`State.blockReset_recv`). -/
theorem resetEdgeAbandonsTheFrame : Obligations.ResetEdgeAbandonsTheFrame := by
  intro s x rest valid quiet hs por
  have edge := (step_of_edge valid quiet hs).trans (clockEdge_of_rstN_low (u := s.sample x rest) por)
  exact ⟨_, edge, quiet, (s.sample x rest).blockReset_recv, rfl, rfl, rfl, rfl, rfl, rfl⟩

/-! ### The source inputs outside LOAD -/

/-- From legal codes a SHIFT edge's line action is the same whatever levels stand on the ports (R259). -/
theorem State.EngineLegal.performed_sample {s : State} (h : s.EngineLegal) (x : Inputs) (rest : List Stimulus) :
    (s.sample x rest).performed = s.performed.sample x rest := by
  obtain ⟨_, word, lines⟩ := h.performed_eq
  obtain ⟨_, word', lines'⟩ := State.EngineLegal.performed_eq (s := s.sample x rest) h
  cases word.symm.trans word'
  rw [lines', lines]
  rfl

theorem State.endPhase_sample (s : State) (x : Inputs) (rest : List Stimulus) :
    (s.sample x rest).endPhase = s.endPhase.sample x rest := by
  cases next : nextAction s.sph s.sbit with
  | some a =>
    rw [State.endPhase_of_next next, State.endPhase_of_next (s := s.sample x rest) next]
    rfl
  | none =>
    rw [State.endPhase_of_last next, State.endPhase_of_last (s := s.sample x rest) next]
    rfl

theorem State.advance_sample (s : State) (x : Inputs) (rest : List Stimulus) :
    (s.sample x rest).advance = s.advance.sample x rest := by
  simp only [State.advance_eq, State.endPhase_sample, apply_ite fun t : State => t.sample x rest]
  rfl

theorem State.settleStep_sample (s : State) (x : Inputs) (rest : List Stimulus) :
    (s.sample x rest).settleStep = s.settleStep.sample x rest := by
  simp only [State.settleStep, apply_ite fun t : State => t.sample x rest]
  rfl

/-- Outside LOAD the display engine's half of an edge reads no port (R259). -/
theorem State.EngineLegal.exec_displayOp_sample {s : State} (h : s.EngineLegal) (notLoad : s.dph ≠ dphLoad) :
    ∃ d : State, ∀ x rest, exec (s.sample x rest).displayOp (s.sample x rest) = .next (d.sample x rest) := by
  have sampled (x : Inputs) (rest : List Stimulus) : (s.sample x rest).EngineLegal := h
  have ⟨notReserved, _⟩ := h
  have phases : ∀ p : BitVec 2, p ≠ dphReserved → p ≠ dphLoad → p = dphShift ∨ p = dphSettle := by decide
  rcases phases s.dph notReserved notLoad with shift | settle
  · refine ⟨s.serStep, fun x rest => ?_⟩
    rw [(sampled x rest).exec_displayOp_of_shift shift, State.serStep_eq, h.performed_sample, State.advance_sample,
      s.serStep_eq]
  · refine ⟨s.settleStep, fun x rest => ?_⟩
    rw [(sampled x rest).exec_displayOp_of_settle settle, s.settleStep_sample]

/-- An edge's inputs with other levels on the four source inputs (R63). -/
def Inputs.withSource (x : Inputs) (src en : Bool) (v : BitVec 16) (pos : BitVec 2) : Inputs :=
  { x with srcSel := src, extValue := v, extDpEn := en, extDpPos := pos }

/-- TIME's half of an edge reads none of the source inputs (R80). -/
theorem State.TimeInRange.timeOp_withSource {s a b : State} (inRange : s.TimeInRange) {x : Inputs}
    (outOfPor : x.rstN = true) {rest : List Stimulus} {src en : Bool} {v : BitVec 16} {pos : BitVec 2}
    (ha : exec (s.sample x rest).timeOp (s.sample x rest) = .next a)
    (hb : exec (s.sample (x.withSource src en v pos) rest).timeOp (s.sample (x.withSource src en v pos) rest) = .next b) :
    b.sec = a.sec ∧ b.min = a.min := by
  have timeA : a.time = x.timeAfter s.time :=
    State.TimeInRange.time_timeOp (s := s.sample x rest) inRange outOfPor ha
  have timeB : b.time = x.timeAfter s.time :=
    State.TimeInRange.time_timeOp (s := s.sample (x.withSource src en v pos) rest) inRange outOfPor hb
  have same : b.time = a.time := timeB.trans timeA.symm
  exact ⟨BitVec.eq_of_toNat_eq (congrArg Prod.fst same), BitVec.eq_of_toNat_eq (congrArg Prod.snd same)⟩

/-- At an edge outside LOAD the next state is the same but for the levels recorded, whatever the source inputs are (R259). -/
theorem State.Legal.clockEdge_withSource {s : State} (h : s.Legal) (notLoad : s.dph ≠ dphLoad) (x : Inputs)
    (rest : List Stimulus) (src en : Bool) (v : BitVec 16) (pos : BitVec 2) :
    ∃ t : State, clockEdge (s.sample x rest) = .next (t.sample x rest) ∧
      clockEdge (s.sample (x.withSource src en v pos) rest) = .next (t.sample (x.withSource src en v pos) rest) := by
  obtain ⟨-, inRange, legal⟩ := h
  cases por : x.rstN with
  | false =>
    exact ⟨s.blockReset.countEdge, clockEdge_of_rstN_low por,
      clockEdge_of_rstN_low (u := s.sample (x.withSource src en v pos) rest) por⟩
  | true =>
    obtain ⟨d, engine⟩ := legal.exec_displayOp_sample notLoad
    obtain ⟨a, c, time, display, -, -, edge⟩ := clockEdge_of_legal (u := s.sample x rest) inRange legal por
    obtain ⟨b, c', time', display', -, -, edge'⟩ :=
      clockEdge_of_legal (u := s.sample (x.withSource src en v pos) rest) inRange legal por
    cases (engine x rest).symm.trans display
    cases (engine (x.withSource src en v pos) rest).symm.trans display'
    obtain ⟨sec, min⟩ := inRange.timeOp_withSource por time time'
    rw [sec, min] at edge'
    exact ⟨(d.setTime a.sec a.min).countEdge, edge, edge'⟩

/-- Settles O53. -/
theorem sourceInputsReadOnlyAtLoad : Obligations.SourceInputsReadOnlyAtLoad := by
  intro s t x src en v pos rest legal quiet notLoad hs hstep y
  have ⟨valid, _⟩ := legal
  obtain ⟨t', edge, edge'⟩ := legal.clockEdge_withSource notLoad x rest src en v pos
  rw [step_of_edge valid quiet hs, edge] at hstep
  cases hstep
  exact (step_of_edge (s := { s with stim := .edge y :: rest }) valid quiet rfl).trans edge'

/-! ### One line at an edge -/

/-- At most one of the three lines differs between the two states. -/
def OneLineMoves (s t : State) : Prop :=
  (t.sdata ≠ s.sdata → t.sclk = s.sclk ∧ t.slatch = s.slatch) ∧ (t.sclk ≠ s.sclk → t.slatch = s.slatch)

namespace OneLineMoves

theorem of_linesKept {s t : State} (h : LinesKept s t) : OneLineMoves s t := ⟨fun _ => ⟨h.sclk, h.slatch⟩, fun _ => h.slatch⟩

theorem trans_linesKept {s t u : State} (h : OneLineMoves s t) (kept : LinesKept t u) : OneLineMoves s u := by
  rwa [OneLineMoves, kept.sdata, kept.sclk, kept.slatch]

theorem drive_sdata (s : State) (b : Bool) : OneLineMoves s (s.driveLines b s.sclk s.slatch) :=
  ⟨fun _ => ⟨rfl, rfl⟩, fun _ => rfl⟩

theorem drive_sclk (s : State) (b : Bool) : OneLineMoves s (s.driveLines s.sdata b s.slatch) :=
  ⟨fun moved => absurd rfl moved, fun _ => rfl⟩

theorem drive_slatch (s : State) (b : Bool) : OneLineMoves s (s.driveLines s.sdata s.sclk b) :=
  ⟨fun moved => absurd rfl moved, fun moved => absurd rfl moved⟩

theorem sdataBit (s : State) (n : BitVec 4) : OneLineMoves s (s.sdataBit n) := by
  unfold State.sdataBit
  split
  · exact drive_sdata ..
  · exact of_linesKept (.raise ..)

/-- Each action names one line, and a reserved code names none (R122 to R127). -/
theorem lineAction (s : State) : OneLineMoves s s.lineAction := by
  unfold State.lineAction
  split_ifs
  · exact drive_slatch s false
  · exact sdataBit ..
  · exact drive_sclk s true
  · exact drive_sclk s false
  · exact drive_slatch s true
  · exact of_linesKept (.raise ..)

theorem performed (s : State) : OneLineMoves s s.performed := by
  by_cases first : s.pcnt = 0
  · rw [State.performed_of_first first]
    exact lineAction s
  · rw [State.performed_of_held first]
    exact of_linesKept (.refl s)

theorem serStep (s : State) : OneLineMoves s s.serStep := (performed s).trans_linesKept (.advance _)

theorem unlessFault {s t : State} (h : OneLineMoves s t) (cs : List FaultCause) : OneLineMoves s (s.unlessFault cs t) := by
  rcases s.unlessFault_cases t cs with ⟨-, e⟩ | ⟨-, e⟩ <;> rw [e]
  · exact h
  · exact of_linesKept (.raise s cs)

end OneLineMoves

/-- Of the operations that DSEL selects only SHIFT writes a line (R32, R77). -/
theorem exec_displayOp_oneLineMoves {s d : State} (h : exec s.displayOp s = .next d) : OneLineMoves s d := by
  rw [s.displayOp_eq] at h
  split_ifs at h
  · exact .of_linesKept (exec_linesKept h (by simp))
  · exact .of_linesKept (exec_linesKept h (by simp))
  · cases h
    exact (OneLineMoves.serStep s).unlessFault _
  · exact .of_linesKept (exec_linesKept h (by simp))
  · exact .of_linesKept (exec_linesKept h (by simp))

theorem State.displayUpdate_oneLineMoves {s d : State} (h : s.displayUpdate = .next d) : OneLineMoves s d := by
  rcases State.displayUpdate_cases h with ⟨-, -, -, rfl⟩ | ⟨-, op⟩
  · exact .of_linesKept ((LinesKept.capture ..).unlessFault _)
  · exact exec_displayOp_oneLineMoves op

/-- Out of POR the lines of an edge are the display engine's, or stay where a fault is recorded (R10, R42). -/
theorem clockEdge_oneLineMoves {u t : State} (h : clockEdge u = .next t) (outOfPor : t.inputs.rstN = true) :
    OneLineMoves u t := by
  rcases clockEdge_cases u with ⟨por, edge⟩ | ⟨-, a, d, -, display, edge⟩ <;> cases edge.symm.trans h
  · exact absurd (outOfPor.symm.trans por) (by decide)
  · rcases u.joinUnits_cases a d with joined | ⟨cs, -, joined⟩ <;> rw [joined]
    · have moves : OneLineMoves u d := State.displayUpdate_oneLineMoves display
      exact moves
    · have still : OneLineMoves u (u.raise cs) := .of_linesKept (.raise u cs)
      exact still

/-- Settles O55. -/
theorem oneLineChangesAtAnEdge : Obligations.OneLineChangesAtAnEdge := by
  intro s t nextIsEdge hstep outOfPor
  obtain ⟨-, -, run⟩ := step_next hstep
  obtain ⟨x, rest, edge, -⟩ := s.runNext_of_edge nextIsEdge
  exact clockEdge_oneLineMoves (u := s.sample x rest) (edge.symm.trans run) outOfPor

end Sys2Proof.Machine
end
